-- ==== Sys2Proof/Word.lean ====
section
/-! DEFINITION. Word.lean: the two value types of the FSD (00_scope.md R7): u8 and u16, both unsigned. -/

namespace Sys2Proof

/-- `u8`: one byte of the stream or of a frame; bit 0 is the least significant (00_scope.md R6, R7). -/
abbrev Byte := BitVec 8

/-- `u16`: a field of a reading, and the computed checksum (`FIELD_W`, 00_scope.md R4, R7). -/
abbrev Half := BitVec 16

end Sys2Proof
end

