-- ==== Sys2Proof/Machine/Types.lean ====
section
/-! DEFINITION. Machine/Types.lean: the plain data State is made of: a reading, the outcome of a tick, the algorithm step a tick
in progress has reached, the replies of operations, the statements of the three agents. -/

namespace Sys2Proof.Machine

/-- A reading: fifteen unsigned 16-bit values in fixed order, under the spec's names (10_state.md R11). `R` and `C` are of it. -/
structure Reading where
  frame_len : Half
  pm10_std : Half
  pm25_std : Half
  pm100_std : Half
  pm10_env : Half
  pm25_env : Half
  pm100_env : Half
  cnt0 : Half
  cnt1 : Half
  cnt2 : Half
  cnt3 : Half
  cnt4 : Half
  cnt5 : Half
  reserved : Half
  checksum : Half
  deriving DecidableEq, Repr

/-- The reading whose field `i` is `f i`, in the order of 10_state.md R11. -/
def readingOf (f : Fin 15 → Half) : Reading :=
  { frame_len := f 0, pm10_std := f 1, pm25_std := f 2, pm100_std := f 3, pm10_env := f 4,
    pm25_env := f 5, pm100_env := f 6, cnt0 := f 7, cnt1 := f 8, cnt2 := f 9, cnt3 := f 10,
    cnt4 := f 11, cnt5 := f 12, reserved := f 13, checksum := f 14 }

/-- The fields of a reading in declared order (10_state.md R11). -/
def readingFields (r : Reading) : List Half :=
  [r.frame_len, r.pm10_std, r.pm25_std, r.pm100_std, r.pm10_env, r.pm25_env, r.pm100_env,
   r.cnt0, r.cnt1, r.cnt2, r.cnt3, r.cnt4, r.cnt5, r.reserved, r.checksum]

/-- Field `i` of a reading, `R[i]` or `C[i]` (00_scope.md R8, indices of 10_state.md R11). -/
def readingGet (r : Reading) (i : Fin 15) : Half :=
  (readingFields r).getD i.val 0#16

/-- `result`, the one-bit outcome of the last completed tick (10_state.md R16). -/
inductive Result where
  | noData
  | success
  deriving DecidableEq, Repr

/-- The five tick operations, which are also the cause labels of the trace (10_state.md R17, 60_exceptions.md R111). -/
inductive Cause where
  | idle
  | resync
  | wait
  | reject
  | accept
  deriving DecidableEq, Repr

/-- Where a tick in progress stands in the algorithm of 41_tick_sync.md R80: the operation it performs next. -/
inductive Phase where
  /-- Step 1: the first `StrAvail()`. -/
  | count1
  /-- Step 2: `StrPeek()`. -/
  | peek
  /-- Step 2, the peeked byte was not the sentinel: `StrPop1()`. -/
  | pop
  /-- Step 3: the second `StrAvail()`. -/
  | count2
  /-- Step 4: `CAPTURE32`. -/
  | capture
  /-- Step 5: `SUM30`. -/
  | sum
  /-- Step 6: `UNPACK15`. -/
  | unpack
  /-- Step 7: `CMP16`. -/
  | compare
  /-- Step 8: `PUBLISH`. -/
  | publish
  deriving DecidableEq, Repr

/-- What an operation returns to the logic that called it: the `return` of its pseudocode (40_stream_interface.md R70 to R73,
42_capture_checksum.md R94, 43_deserialize_publish.md R100). -/
inductive Reply where
  | count (n : Nat)
  | byte (b : Byte)
  | bytes (l : List Byte)
  | word (v : Half)
  | bit (b : Bool)
  deriving DecidableEq, Repr

/-- One move of the parameter `Schedule` (00_scope.md R5: "interleaving of source arrivals, ticks and host reads", "ticks are atomic
against arrivals"). -/
inductive Move where
  /-- The source makes the next `n` bytes of `In` available, or as many of them as R31 allows (20_memory.md R31). -/
  | arrive (n : Nat)
  /-- The host has one tick performed, as one step (20_memory.md R41 c). -/
  | tick
  /-- The host reads `R[i]` (10_state.md R12). -/
  | read (i : Fin 15)
  deriving DecidableEq, Repr, Inhabited

/-- One move of one agent, the statements of the scenario notation (30_encoding.md R60) among them. -/
inductive Stmt where
  /-- `PUSH` (30_encoding.md R60): the source appends these bytes at the tail (20_memory.md R31). -/
  | push (bs : List Byte)
  /-- The source makes the next `n` bytes of the parameter `In` available, or as many of them as R31 allows (20_memory.md R31). -/
  | arrive (n : Nat)
  /-- `TICK` (30_encoding.md R60): the host has one tick performed, as one step (20_memory.md R41 c). -/
  | tick
  /-- The host starts a tick that is carried out operation by operation (the non-atomic realisation of 20_memory.md R39, R42). -/
  | start
  /-- The FSD performs the next operation of the tick in progress. -/
  | fsd
  /-- `READ` (30_encoding.md R60): the host reads `R[i]`. -/
  | read (i : Fin 15)
  /-- A reset between ticks (70_reset_and_hazards.md R130, R132). -/
  | reset
  /-- A second consumer takes bytes from the stream: outside the contract (60_exceptions.md R121). -/
  | otherConsumer (n : Nat)
  /-- The source replaces what `S` holds: outside the contract (60_exceptions.md R121). -/
  | alterStream (bs : List Byte)
  deriving DecidableEq, Repr

/-- A move of the parameter `Schedule` as a statement. -/
def Move.stmt : Move → Stmt
  | .arrive n => .arrive n
  | .tick => .tick
  | .read i => .read i

end Sys2Proof.Machine
end

