-- ==== Sys2Proof/Config.lean ====
section
/-! DEFINITION. Config.lean: the constants the source fixes (00_scope.md R4) and the parameters it leaves open (00_scope.md R5),
the latter as constants without a body: nothing in Lean can evaluate one or prove a value of it, so that what is proved holds whatever
it is. `PortBinding` and `TickLatency` are arguments of the statements about bindings (Safety.lean). -/

namespace Sys2Proof

open Sys2Proof.Machine

/-- `SENTINEL`: the marker value byte 0 of a frame must have (00_scope.md R4). -/
abbrev Config.sentinel : Byte := 0x42#8

/-- `FRAME_LEN`: length of the Raw Frame in bytes (00_scope.md R4). -/
abbrev Config.frameLen : Nat := 32

/-- `SUM_LEN`: number of leading frame bytes the checksum sums (00_scope.md R4). -/
abbrev Config.sumLen : Nat := 30

/-- `MARK_LEN`: length of the start sequence, which is in no field (00_scope.md R4). -/
abbrev Config.markLen : Nat := 2

/-- `NFIELDS`: number of 16-bit fields of a reading (00_scope.md R4). The type `Reading` has one field for each. -/
abbrev Config.nFields : Nat := 15

/-- `CK_IDX`: index of the checksum field (00_scope.md R4). -/
abbrev Config.ckIdx : Fin 15 := 14

/-- `R_reset` (00_scope.md R5): what register `i` of `R` holds after the `k`-th reset, a free value: "a model returns a fault or
an arbitrary draw, never zero by assumption" (10_state.md R24). DESIGN CHOICE, log entry 2. -/
opaque Config.rReset : Nat → Fin 15 → Half

/-- `In` (00_scope.md R5): "every byte the source will ever make available, in arrival order"; byte `k` of it, any byte.
DESIGN CHOICE, log entry 4. -/
opaque Config.In : Nat → Byte

/-- `len(In)` (00_scope.md R5: "infinite or finite sequence of bytes"; 20_memory.md R31), `none` where `In` is infinite.
DESIGN CHOICE, log entry 4. -/
opaque Config.lenIn : Option Nat

/-- How many bytes of `In` have arrived when the machine comes out of reset, "any value >= 0 allowed by `CAP`" (10_state.md R24):
State.reset takes as many of them as `CAP` and `len(In)` allow. DESIGN CHOICE, log entry 3. -/
opaque Config.arrReset : Nat

/-- `CAP` (00_scope.md R5): the largest number of unread bytes the source can hold, `none` for no bound. It is the value the
field `cap` of State has at reset; the operations read the field. DESIGN CHOICE, log entry 5. -/
opaque Config.cap : Option Nat

/-- `Schedule` (00_scope.md R5): "interleaving of source arrivals, ticks and host reads", "who steps when"; the `k`-th move, any
move. It runs wherever no scenario statement is left. DESIGN CHOICE, log entry 6. -/
opaque Config.schedule : Nat → Move

end Sys2Proof
end

