-- ==== Sys2Proof/Machine/Operands.lean ====
section
/-! DEFINITION. Machine/Operands.lean: the arithmetic of the FSD on bytes, frames and readings (42_capture_checksum.md R93): the
zero-extension, the big-endian assembly and its inverse, the checksum, the deserializer, the frame a reading comes from. -/

namespace Sys2Proof.Machine

/-- `zext_16(b)`: the u16 with the numeric value of the byte (00_scope.md R7). No sign extension is ever performed. -/
def zext16 (b : Byte) : Half := b.setWidth 16

/-- `F[k]`, the byte at offset `k` of a frame (00_scope.md R6, R8). -/
def frameByte (f : List Byte) (k : Nat) : Byte := f.getD k 0#8

/-- `BE16(hi, lo) = (zext_16(hi) << 8) | zext_16(lo)` (43_deserialize_publish.md R100, 20_memory.md R33). -/
def assembleBE (hi lo : Byte) : Half := (zext16 hi <<< 8) ||| zext16 lo

/-- `v >> 8`, the high byte of a field (43_deserialize_publish.md R100, R103). -/
def highByte (v : Half) : Byte := v.extractLsb' 8 8

/-- `v & 0xFF`, the low byte of a field (43_deserialize_publish.md R100, R103). -/
def lowByte (v : Half) : Byte := v.extractLsb' 0 8

/-- The wrapping 16-bit sum of a list of zero-extended bytes, the accumulator starting at `acc` (`+16`, 00_scope.md R7). -/
def sumBytes : Half → List Byte → Half
  | acc, [] => acc
  | acc, b :: bs => sumBytes (acc + zext16 b) bs

/-- `SUM30`: the 16-bit wrapping sum of `F[0..29]`, byte by byte (42_capture_checksum.md R92). -/
def frameSum (f : List Byte) : Half := sumBytes 0#16 (f.take Config.sumLen)

/-- Lane `i` of the deserializer: `BE16(F[2+2i], F[2+2i+1])` (43_deserialize_publish.md R101, R102, 30_encoding.md R53). -/
def frameField (f : List Byte) (i : Nat) : Half :=
  assembleBE (frameByte f (Config.markLen + 2 * i)) (frameByte f (Config.markLen + 2 * i + 1))

/-- `UNPACK15`: the fifteen fields of a frame, in order (43_deserialize_publish.md R101). -/
def unpackFrame (f : List Byte) : Reading := readingOf fun i => frameField f i.val

/-- `CMP16`: equality of two unsigned 16-bit values, all 16 bits (42_capture_checksum.md R94). -/
def sameSum (a b : Half) : Bool := a == b

/-- A captured frame is valid iff `SUM30(F) == (F[30] << 8) | F[31]` (42_capture_checksum.md R95). -/
def frameValid (f : List Byte) : Bool := sameSum (frameSum f) (unpackFrame f).checksum

/-- The bytes of a list of fields, each high byte first (43_deserialize_publish.md R103, the inverse of UNPACK15). -/
def fieldBytes : List Half → List Byte
  | [] => []
  | v :: vs => highByte v :: lowByte v :: fieldBytes vs

/-- The `FRAME32` block with secondary marker `m` and these fifteen fields (30_encoding.md R51, R52). -/
def encodeFrame (m : Byte) (c : Reading) : List Byte :=
  Config.sentinel :: m :: fieldBytes (readingFields c)

/-- The reading with its checksum field set to the sum of the frame it is sent in: what `FRAME m f0 .. f13` pushes
(30_encoding.md R60). -/
def withChecksum (m : Byte) (c : Reading) : Reading :=
  { c with checksum := frameSum (encodeFrame m c) }

/-- `In[p .. p+n-1]`, `n` bytes of the parameter `In` from position `p` on (10_state.md R14). -/
def inSlice (p n : Nat) : List Byte := (List.range n).map fun k => Config.In (p + k)

/-- `n`, or the bound where there is a smaller one. -/
def atMost (bound : Option Nat) (n : Nat) : Nat :=
  match bound with
  | none => n
  | some c => min n c

/-- The bytes of a number of `8 * n` bits, most significant byte first (30_encoding.md R52: "offset 0 most significant"). -/
def bytesOfNat : Nat → Nat → List Byte
  | 0, _ => []
  | n + 1, w => BitVec.ofNat 8 (w >>> (8 * n)) :: bytesOfNat n w

end Sys2Proof.Machine
end

