-- ==== Sys2Proof/Machine/Flags.lean ====
section
/-! DEFINITION. Machine/Flags.lean: the selection key of a tick, bit by bit (30_encoding.md R54), and the two outcome flags with
their encodings (10_state.md R16, 60_exceptions.md R112). -/

namespace Sys2Proof.Machine

/-- `K[2]`, `nz`: `len(S) >= 1` (30_encoding.md R54). -/
def keyNz (s : List Byte) : Bool := !s.isEmpty

/-- `K[3]`, `ge32`: `len(S) >= 32` (30_encoding.md R54). -/
def keyGe32 (s : List Byte) : Bool := Config.frameLen ≤ s.length

/-- `K[1]`, `hs`: `S[0] == 0x42`, 0 on an empty stream (30_encoding.md R54). -/
def keyHs (s : List Byte) : Bool := s.head? == some Config.sentinel

/-- `K[0]`, `ck`: the checksum equation on `S[0..31]`, 0 unless `ge32` and `hs` (30_encoding.md R54). -/
def keyCk (s : List Byte) : Bool := keyGe32 s && keyHs s && frameValid (s.take Config.frameLen)

/-- One bit as a vector. -/
def bit1 (b : Bool) : BitVec 1 := if b then 1#1 else 0#1

/-- The selection key `K[3:0]` of a stream (30_encoding.md R54). -/
def streamKey (s : List Byte) : BitVec 4 :=
  bit1 (keyGe32 s) ++ bit1 (keyNz s) ++ bit1 (keyHs s) ++ bit1 (keyCk s)

/-- The result of a tick that performs this operation (00_scope.md R9: "The result of `T.ACCEPT` is `SUCCESS`; the result of the
other four is `NO_DATA`"). -/
def Cause.result : Cause → Result
  | .idle => .noData
  | .resync => .noData
  | .wait => .noData
  | .reject => .noData
  | .accept => .success

/-- The bytes a tick that performs this operation consumes (10_state.md R15). -/
def Cause.consumes : Cause → Nat
  | .idle => 0
  | .resync => 1
  | .wait => 0
  | .reject => Config.frameLen
  | .accept => Config.frameLen

/-- `SUCCESS` is encoded 1, `NO_DATA` 0 (10_state.md R16). -/
def Result.code : Result → BitVec 1
  | .noData => 0#1
  | .success => 1#1

/-- The cause codes of a trace (60_exceptions.md R112). -/
def Cause.code : Cause → Nat
  | .idle => 0
  | .resync => 1
  | .wait => 2
  | .reject => 3
  | .accept => 4

end Sys2Proof.Machine
end

