-- ==== Sys2Proof/Syntax.lean ====
section
/-! DEFINITION. Syntax.lean: the operations of the FSD, one constructor for each row of spec/opcode_table.json. -/

namespace Sys2Proof

/-- The 16 rows of the operation table (30_encoding.md R55): the entry, the five tick operations, the four operations of the
byte-stream source, the six internal steps. -/
inductive Instr where
  /-- `TICK`, the decode attempt, the only entry point (41_tick_sync.md R80). -/
  | tick
  /-- `T.IDLE` (41_tick_sync.md R82). -/
  | tIdle
  /-- `T.RESYNC` (41_tick_sync.md R83). -/
  | tResync
  /-- `T.WAIT` (41_tick_sync.md R84). -/
  | tWait
  /-- `T.REJECT` (42_capture_checksum.md R97). -/
  | tReject
  /-- `T.ACCEPT` (43_deserialize_publish.md R105). -/
  | tAccept
  /-- `S.AVAIL` (40_stream_interface.md R70). -/
  | sAvail
  /-- `S.PEEK` (40_stream_interface.md R71). -/
  | sPeek
  /-- `S.POP1` (40_stream_interface.md R72). -/
  | sPop1
  /-- `S.READN`, of `n` bytes (40_stream_interface.md R73). -/
  | sReadn (n : Nat)
  /-- `CAPTURE32`, step 4 (42_capture_checksum.md R91). -/
  | capture32
  /-- `SUM30`, step 5 (42_capture_checksum.md R92). -/
  | sum30
  /-- `BE16`, the lane operation of step 6 (43_deserialize_publish.md R100). -/
  | be16 (hi lo : Byte)
  /-- `UNPACK15`, step 6 (43_deserialize_publish.md R101). -/
  | unpack15
  /-- `CMP16`, step 7 (42_capture_checksum.md R94). -/
  | cmp16
  /-- `PUBLISH`, step 8 (43_deserialize_publish.md R104). -/
  | publish
  deriving DecidableEq, Repr

end Sys2Proof
end

