-- ==== Sys2Proof/Decode.lean ====
section
/-! DEFINITION. Decode.lean: the selection of a tick's operation by the bytes at the head of the stream (30_encoding.md R54), total
on any bytes (30_encoding.md R59), then the encoder, written from the same table, and the table words the host asks about. -/

namespace Sys2Proof

open Sys2Proof.Machine

/-- The mask over `K[3:0]` of each tick operation (the table of 30_encoding.md R54; spec/opcode_table.json). -/
def keyMask : Cause → BitVec 4
  | .idle => 0b0100#4
  | .resync => 0b0110#4
  | .wait => 0b1110#4
  | .reject => 0b1111#4
  | .accept => 0b1111#4

/-- The match over `K[3:0]` of each tick operation (the table of 30_encoding.md R54; spec/opcode_table.json). -/
def keyMatch : Cause → BitVec 4
  | .idle => 0b0000#4
  | .resync => 0b0100#4
  | .wait => 0b0110#4
  | .reject => 0b1110#4
  | .accept => 0b1111#4

/-- Does a key fall under the row of this operation? -/
def keySelects (c : Cause) (k : BitVec 4) : Bool := k &&& keyMask c == keyMatch c

/-- The operation a key selects, the rows tried in the order of 60_exceptions.md R114 (R54: "the selection is total and
deterministic"). -/
def decodeKey (k : BitVec 4) : Cause :=
  if keySelects .idle k then .idle
  else if keySelects .resync k then .resync
  else if keySelects .wait k then .wait
  else if keySelects .reject k then .reject
  else .accept

/-- The tick operation a stream selects: "a function of the stream at the tick's linearization point and of nothing else"
(30_encoding.md R54). -/
def selectOp (s : List Byte) : Cause := decodeKey (streamKey s)

/-- The operation's row of the table. -/
def tickInstr : Cause → Instr
  | .idle => .tIdle
  | .resync => .tResync
  | .wait => .tWait
  | .reject => .tReject
  | .accept => .tAccept

/-- THE DECODER: the operation the bytes at the head of the stream select. Total on any bytes: "There is no illegal encoding and
no trap" (30_encoding.md R59). -/
def decode (s : List Byte) : Instr := tickInstr (selectOp s)

/-- THE ENCODER: the key of a tick operation with its don't-care bits 0 (30_encoding.md R54). The entry, the source operations and
the internal steps "have no bit encoding" (30_encoding.md R55): none. -/
def encode : Instr → Option (BitVec 4)
  | .tick => none
  | .tIdle => some (keyMatch .idle)
  | .tResync => some (keyMatch .resync)
  | .tWait => some (keyMatch .wait)
  | .tReject => some (keyMatch .reject)
  | .tAccept => some (keyMatch .accept)
  | .sAvail => none
  | .sPeek => none
  | .sPop1 => none
  | .sReadn _ => none
  | .capture32 => none
  | .sum30 => none
  | .be16 _ _ => none
  | .unpack15 => none
  | .cmp16 => none
  | .publish => none

/-- A reading whose fields are all `v` but for its checksum field. -/
def flatReading (v ck : Half) : Reading :=
  { readingOf (fun _ => v) with checksum := ck }

/-- The shortest stream that selects the operation: empty; one byte that is not the sentinel; the sentinel alone; a 32-byte block
of zeros after its sentinel whose checksum field is wrong, and the same block with the right one (frame Zr of
95_test_vectors.md). -/
def sampleStream : Cause → List Byte
  | .idle => []
  | .resync => [0x00#8]
  | .wait => [Config.sentinel]
  | .reject => encodeFrame 0x00#8 (flatReading 0#16 0x0000#16)
  | .accept => encodeFrame 0x00#8 (flatReading 0#16 0x0042#16)

/-- Is the number a `FRAME32` pattern: `frame_mask = 0xFF << 248`, `frame_match = 0x42 << 248` (30_encoding.md R52)? -/
def isFrameWord (nbits w : Nat) : Bool := nbits == 256 && w >>> 248 == 0x42

/-- Is the number a selection key `K[3:0]` (30_encoding.md R54), in a word of any width? -/
def isKeyWord (nbits w : Nat) : Bool := 0 < nbits && w < 16

/-- The stream bytes that stand for a table word: a frame's own 32 bytes, offset 0 the most significant (30_encoding.md R52);
for a key, the shortest stream that selects the operation. Log entry 12. -/
def tableStream (nbits w : Nat) : Option (List Byte) :=
  if isFrameWord nbits w then some (bytesOfNat 32 w)
  else if isKeyWord nbits w then some (sampleStream (decodeKey (BitVec.ofNat 4 w)))
  else none

/-- The instruction the decoder reads from a table word: for a word of no bits the entry `TICK`, the one row with no selecting bits
that is issued from outside (41_tick_sync.md R80); for a key the operation it selects; for a frame the operation its bytes select;
any other number is no word of the table. Log entry 12. -/
def decodeTableWord (nbits w : Nat) : Option Instr :=
  if nbits == 0 then (if w == 0 then some .tick else none)
  else if isFrameWord nbits w then some (decode (bytesOfNat 32 w))
  else if isKeyWord nbits w then some (tickInstr (decodeKey (BitVec.ofNat 4 w)))
  else none

end Sys2Proof
end

