-- ==== Sys2Proof/Machine/State.lean ====
section
/-! DEFINITION. Machine/State.lean: the state of the FSD and of the agents about it as plain data, the reasons a step can be
refused, and the state after reset. -/

namespace Sys2Proof.Machine

/-- "The whole state is the tuple `(S, cur, R, published)` plus, only inside a tick, the transients `(F, sum, C)`, plus the outputs
of the last tick `(result, cause)`" (10_state.md R10), and the model's own fields at the end. -/
structure State where
  /-- The unread stream, head first (10_state.md R14, 20_memory.md R30). -/
  S : List Byte
  /-- The stream cursor: bytes consumed since reset (10_state.md R14). -/
  cur : Nat
  /-- The published reading (10_state.md R11, R12). -/
  R : Reading
  /-- 1 from the first `T.ACCEPT` on (10_state.md R13). -/
  published : Bool
  /-- The outcome of the last completed tick (10_state.md R16). -/
  result : Result
  /-- The trace label of the last completed tick (10_state.md R17); none before the first (R24). -/
  cause : Option Cause
  /-- The frame buffer; holds nothing outside a tick (10_state.md R19). -/
  F : Option (List Byte)
  /-- The computed checksum; holds nothing outside a tick (10_state.md R20). -/
  sum : Option Half
  /-- The candidate reading; holds nothing outside a tick (10_state.md R20). -/
  C : Option Reading
  /-- The tick in progress and the step it has reached; none between ticks (20_memory.md R44, 70_reset_and_hazards.md R130). -/
  phase : Option Phase
  /-- The model's own: what the last operation of the tick in progress answered. -/
  reply : Option Reply
  /-- The model's own: the word the host's last READ got. -/
  readData : Option Half
  /-- The model's own: the scenario statements still to come, first first (30_encoding.md R60); where none is left the moves are
  those of the parameter `Schedule` (00_scope.md R5). -/
  schedule : List Stmt
  /-- The model's own: the number of the next move of the parameter `Schedule`. -/
  turn : Nat
  /-- The position in the parameter `In` of the byte that arrives next (20_memory.md R31). -/
  inPos : Nat
  /-- `CAP` (00_scope.md R5), none for no bound; no step writes it. -/
  cap : Option Nat
  /-- The model's own: the number of the next draw of free values for `R`. -/
  draws : Nat
  deriving DecidableEq, Repr

/-- `arr`, the number of bytes that have arrived (10_state.md R14: `len(S) = arr - cur`). -/
def State.arr (s : State) : Nat := s.cur + s.S.length

/-- The reasons the machine stops with a fault: none. "The FSD raises no exception, trap, fault or error signal, ever"
(60_exceptions.md R110). -/
inductive Fault where
  deriving DecidableEq, Repr

/-- The reasons a step is refused: calls and schedules that the spec puts outside the contract ("have no specified behaviour, and a
model gives them no step (refuses them)", 60_exceptions.md R121), and internal steps or tick operations carried out where the FSD
never carries them out. Each is safe: the model stops where nothing is specified. -/
inductive Refusal where
  /-- Raised by exec for an instruction without a meaning; no arm of this model raises it. Safe. -/
  | notModelled (mnemonic : String)
  /-- Raised by S.PEEK and S.POP1 on an empty stream (40_stream_interface.md R71, R72). Safe. -/
  | emptyStream
  /-- Raised by S.READN and CAPTURE32 when fewer bytes are available than asked for (40_stream_interface.md R73). Safe. -/
  | shortStream
  /-- Raised by the five tick operations on a stream that selects another one (30_encoding.md R54). Safe. -/
  | notSelected (selected : Cause)
  /-- Raised by TICK, the five tick operations and the statement `start` while a tick is in progress (20_memory.md R44,
  60_exceptions.md R121). Safe. -/
  | overlappingTick
  /-- Raised by SUM30 and UNPACK15 when `F` does not hold a captured frame (10_state.md R19). Safe. -/
  | noFrame
  /-- Raised by CMP16 when `sum` holds nothing (10_state.md R20). Safe. -/
  | noSum
  /-- Raised by CMP16 and PUBLISH when `C` holds nothing (10_state.md R20). Safe. -/
  | noCandidate
  /-- Raised by the statement `read` while a tick is in progress (60_exceptions.md R120, R121). Safe. -/
  | readDuringTick
  /-- Raised by the statement `reset` while a tick is in progress (70_reset_and_hazards.md R132). Safe. -/
  | resetDuringTick
  /-- Raised by the statement `push` when the bytes would bring the unread count above `CAP` (20_memory.md R31). Safe. -/
  | overCapacity
  /-- Raised by the statement `otherConsumer` (60_exceptions.md R121). Safe. -/
  | secondConsumer
  /-- Raised by the statement `alterStream` (60_exceptions.md R121). Safe. -/
  | streamAltered
  deriving DecidableEq, Repr

/-- The bytes of `In` that have arrived at reset (10_state.md R24: any number "allowed by `CAP`"). -/
def arrivedAtReset : Nat := atMost Config.cap (atMost Config.lenIn Config.arrReset)

/-- The machine right after reset (10_state.md R24, 70_reset_and_hazards.md R130): nothing published, `NO_DATA`, no cause, no tick
in progress, `cur = 0`, the transients hold nothing; `R` and the stream, the first bytes of `In`, are free
values. -/
def State.reset : State :=
  { S := inSlice 0 arrivedAtReset
    cur := 0
    R := readingOf (Config.rReset 0)
    published := false
    result := .noData
    cause := none
    F := none
    sum := none
    C := none
    phase := none
    reply := none
    readData := none
    schedule := []
    turn := 0
    inPos := arrivedAtReset
    cap := Config.cap
    draws := 1 }

end Sys2Proof.Machine
end

