-- ==== Sys2Proof/Machine/Ops.lean ====
section
/-! DEFINITION. Machine/Ops.lean: the named operations on the stream, the frame buffer, the reading and the outcome of a tick.
There is no exception entry and no return from one (60_exceptions.md R110, R115, R116): what a tick that fails leaves is
`State.endTick`, and the recovery is the next tick. -/

namespace Sys2Proof.Machine

/-- The answer of every meaning. -/
abbrev Answer := Host.Outcome State Fault Refusal

/-- The source appends: `S` grows at its tail, no byte already in it changes (20_memory.md R31). -/
def State.append (s : State) (bs : List Byte) : State := { s with S := s.S ++ bs }

/-- Is an unread count within `CAP`, or an arrived count within `len(In)` (20_memory.md R31: `arr + n - cur <= CAP`,
`arr + n <= len(In)`)? -/
def withinCap (cap : Option Nat) (n : Nat) : Bool :=
  match cap with
  | none => true
  | some c => n ≤ c

/-- The largest arrival of at most `n` bytes that R31 allows: `arr + n <= len(In)` and `arr + n - cur <= CAP`. -/
def State.canArrive (s : State) (n : Nat) : Nat :=
  atMost (s.cap.map (· - s.S.length)) (atMost (Config.lenIn.map (· - s.inPos)) n)

/-- The source makes the next `m` bytes of `In` available: `arr <- arr + m` (20_memory.md R31). -/
def State.deliver (s : State) (m : Nat) : State :=
  { s.append (inSlice s.inPos m) with inPos := s.inPos + m }

/-- `n` bytes leave the head of the stream, `cur <- cur + n` (10_state.md R15). -/
def State.consume (s : State) (n : Nat) : State :=
  { s with S := s.S.drop n, cur := s.cur + n }

/-- An operation answers its caller. -/
def State.answer (s : State) (r : Reply) : State := { s with reply := some r }

/-- `F[0..] <- ...`, all bytes at once (10_state.md R19). -/
def State.setFrame (s : State) (f : List Byte) : State := { s with F := some f }

/-- `sum <- ...` (10_state.md R20). -/
def State.setSum (s : State) (v : Half) : State := { s with sum := some v }

/-- `C[0..14] <- ...` (10_state.md R20). -/
def State.setCandidate (s : State) (c : Reading) : State := { s with C := some c }

/-- `R[0..14] <- C[0..14]; published <- 1`, in one indivisible step (43_deserialize_publish.md R104). -/
def State.publish (s : State) (c : Reading) : State := { s with R := c, published := true }

/-- `F`, `sum`, `C` are discarded (42_capture_checksum.md R97, 43_deserialize_publish.md R105). -/
def State.discard (s : State) : State := { s with F := none, sum := none, C := none }

/-- A tick ends with this cause: `result` and `cause` are written "by every path" (41_tick_sync.md R80). -/
def State.endTick (s : State) (c : Cause) : State :=
  { s with result := c.result, cause := some c }

/-- The frame in the buffer, if it holds one (10_state.md R19: 32 bytes). -/
def State.frame (s : State) : Option (List Byte) :=
  match s.F with
  | some f => if f.length == Config.frameLen then some f else none
  | none => none

/-- `StrRead(n)` into the frame buffer: the head `n` bytes, in stream order, leave the stream (40_stream_interface.md R73). -/
def State.strRead (s : State) (n : Nat) : State :=
  (s.setFrame (s.S.take n)).consume n

/-- The effect of `T.IDLE` (41_tick_sync.md R82): a row of the table of 60_exceptions.md R115, as the four below. -/
def State.idleEffect (s : State) : State := s.endTick .idle

/-- The effect of `T.RESYNC` (41_tick_sync.md R83). -/
def State.resyncEffect (s : State) : State := (s.consume 1).endTick .resync

/-- The effect of `T.WAIT` (41_tick_sync.md R84). -/
def State.waitEffect (s : State) : State := s.endTick .wait

/-- The effect of `T.REJECT` (42_capture_checksum.md R97). -/
def State.rejectEffect (s : State) : State :=
  ((s.consume Config.frameLen).discard).endTick .reject

/-- The effect of `T.ACCEPT` (43_deserialize_publish.md R105): the captured block is the head 32 bytes. -/
def State.acceptEffect (s : State) : State :=
  ((((s.consume Config.frameLen).publish (unpackFrame (s.S.take Config.frameLen))).discard).endTick .accept)

/-- A tick operation runs where no tick is in progress and the stream selects it (20_memory.md R44, 30_encoding.md R54). -/
def State.runSelected (s : State) (c : Cause) (effect : State) : Answer :=
  match s.phase with
  | some _ => .refused .overlappingTick
  | none => if selectOp s.S = c then .next effect else .refused (.notSelected (selectOp s.S))

/-- Reset between ticks (70_reset_and_hazards.md R130): `R` holds no specified value (the next draw), the stream is neither emptied
nor aligned, and what belongs to the source and the host stays (`In` has not moved). -/
def State.resetBetweenTicks (s : State) : State :=
  { s with
    cur := 0
    R := readingOf (Config.rReset s.draws)
    published := false
    result := .noData
    cause := none
    F := none
    sum := none
    C := none
    phase := none
    reply := none
    draws := s.draws + 1 }

end Sys2Proof.Machine
end

