-- ==== Sys2Proof/Machine/Capture.lean ====
section
/-! DEFINITION. Machine/Capture.lean: the internal steps 4, 5 and 7 of a tick (42_capture_checksum.md). -/

namespace Sys2Proof.Machine

/-- `CAPTURE32`, step 4: `F[0..31] <- StrRead(32)` (42_capture_checksum.md R91). -/
def execCapture32 (s : State) : Answer :=
  if Config.frameLen ≤ s.S.length then .next (s.strRead Config.frameLen)
  else .refused .shortStream

/-- `SUM30`, step 5: `sum <- (F[0] + ... + F[29]) mod 65536` (42_capture_checksum.md R92). -/
def execSum30 (s : State) : Answer :=
  match s.frame with
  | some f => .next (s.setSum (frameSum f))
  | none => .refused .noFrame

/-- `CMP16`, step 7: answers `sum == C[14]`; the outcome is not stored (42_capture_checksum.md R94). -/
def execCmp16 (s : State) : Answer :=
  match s.sum, s.C with
  | some v, some c => .next (s.answer (.bit (sameSum v (readingGet c Config.ckIdx))))
  | none, _ => .refused .noSum
  | some _, none => .refused .noCandidate

end Sys2Proof.Machine
end

