-- ==== Sys2Proof/Machine/Publish.lean ====
section
/-! DEFINITION. Machine/Publish.lean: the internal steps 6 and 8 of a tick (43_deserialize_publish.md). -/

namespace Sys2Proof.Machine

/-- `BE16`: answers the big-endian assembly of two bytes; pure and total (43_deserialize_publish.md R100). -/
def execBe16 (hi lo : Byte) (s : State) : Answer :=
  .next (s.answer (.word (assembleBE hi lo)))

/-- `UNPACK15`, step 6: `C[i] <- BE16(F[2+2i], F[2+2i+1])` for all fifteen `i`; `R` is not written
(43_deserialize_publish.md R101). -/
def execUnpack15 (s : State) : Answer :=
  match s.frame with
  | some f => .next (s.setCandidate (unpackFrame f))
  | none => .refused .noFrame

/-- `PUBLISH`, step 8: `R[0..14] <- C[0..14]; published <- 1` (43_deserialize_publish.md R104). -/
def execPublish (s : State) : Answer :=
  match s.C with
  | some c => .next (s.publish c)
  | none => .refused .noCandidate

end Sys2Proof.Machine
end

