-- ==== Sys2Proof/Machine/Stream.lean ====
section
/-! DEFINITION. Machine/Stream.lean: the four operations of the byte-stream source (40_stream_interface.md). -/

namespace Sys2Proof.Machine

/-- `S.AVAIL`: "a count of currently available unread bytes", `arr - cur`; it always answers (40_stream_interface.md R70). -/
def execSAvail (s : State) : Answer :=
  .next (s.answer (.count (s.arr - s.cur)))

/-- `S.PEEK`: the head byte, not consumed; refused on an empty stream (40_stream_interface.md R71). -/
def execSPeek (s : State) : Answer :=
  match s.S with
  | [] => .refused .emptyStream
  | b :: _ => .next (s.answer (.byte b))

/-- `S.POP1`: the head byte leaves the stream; refused on an empty stream (40_stream_interface.md R72). -/
def execSPop1 (s : State) : Answer :=
  match s.S with
  | [] => .refused .emptyStream
  | _ :: _ => .next (s.consume 1)

/-- `S.READN`: `n` bytes leave the stream for the caller's buffer and are returned; refused when fewer are available
(40_stream_interface.md R73). -/
def execSReadn (n : Nat) (s : State) : Answer :=
  if n ≤ s.S.length then .next ((s.strRead n).answer (.bytes (s.S.take n)))
  else .refused .shortStream

end Sys2Proof.Machine
end

