-- ==== Sys2Proof/Machine/Tick.lean ====
section
/-! DEFINITION. Machine/Tick.lean: the tick and its five operations (41_tick_sync.md, 42_capture_checksum.md R97,
43_deserialize_publish.md R105). -/

namespace Sys2Proof.Machine

/-- The state the algorithm of 41_tick_sync.md R80 leaves, its steps numbered as there. `F`, `sum` and `C` are local to it
(10_state.md R19, R20). -/
def tickAlgorithm (s : State) : State :=
  -- 1. if StrAvail() == 0: note IDLE; return NO_DATA
  if s.S.length == 0 then s.endTick .idle
  -- 2. b <- StrPeek(); if b != 0x42: StrPop1(); note RESYNC; return NO_DATA
  else if frameByte s.S 0 != Config.sentinel then (s.consume 1).endTick .resync
  -- 3. if StrAvail() < 32: note WAIT; return NO_DATA
  else if s.S.length < Config.frameLen then s.endTick .wait
  else
    -- 4. F[0..31] <- StrRead(32)
    let f := s.S.take Config.frameLen
    let t := s.consume Config.frameLen
    -- 5. sum <- SUM30(F)
    let v := frameSum f
    -- 6. C[0..14] <- UNPACK15(F)
    let c := unpackFrame f
    -- 7. if sum != C[14]: note REJECT; return NO_DATA
    if !sameSum v (readingGet c Config.ckIdx) then t.discard.endTick .reject
    -- 8. R[0..14] <- C[0..14]; published <- 1; note ACCEPT; return SUCCESS
    else (t.publish c).discard.endTick .accept

/-- `TICK`, the decode attempt, the only entry point: the algorithm of 41_tick_sync.md R80 as one indivisible step
(20_memory.md R39, R41). Refused while a tick is in progress (20_memory.md R44). The same algorithm operation by operation is
`microStep` in Machine/Schedule.lean. -/
def execTick (s : State) : Answer :=
  match s.phase with
  | some _ => .refused .overlappingTick
  | none => .next (tickAlgorithm s)

/-- `T.IDLE`: the stream is empty; nothing is consumed (41_tick_sync.md R82). -/
def execTIdle (s : State) : Answer := s.runSelected .idle s.idleEffect

/-- `T.RESYNC`: the head is not the sentinel; exactly that byte is consumed (41_tick_sync.md R83). -/
def execTResync (s : State) : Answer := s.runSelected .resync s.resyncEffect

/-- `T.WAIT`: the sentinel with fewer than 32 bytes; nothing is consumed (41_tick_sync.md R84). -/
def execTWait (s : State) : Answer := s.runSelected .wait s.waitEffect

/-- `T.REJECT`: a block whose checksum does not match; 32 bytes are consumed, `R` stays (42_capture_checksum.md R97). -/
def execTReject (s : State) : Answer := s.runSelected .reject s.rejectEffect

/-- `T.ACCEPT`: a valid block; 32 bytes are consumed and its reading is published (43_deserialize_publish.md R105). -/
def execTAccept (s : State) : Answer := s.runSelected .accept s.acceptEffect

end Sys2Proof.Machine
end

