-- ==== Sys2Proof/Machine/Dispatch.lean ====
section
/-! DEFINITION. Machine/Dispatch.lean: one arm per row of the operation table. -/

namespace Sys2Proof.Machine

def exec (i : Instr) (s : State) : Host.Outcome State Fault Refusal :=
  match i with
  | .tick => Sys2Proof.Machine.execTick s
  | .tIdle => Sys2Proof.Machine.execTIdle s
  | .tResync => Sys2Proof.Machine.execTResync s
  | .tWait => Sys2Proof.Machine.execTWait s
  | .tReject => Sys2Proof.Machine.execTReject s
  | .tAccept => Sys2Proof.Machine.execTAccept s
  | .sAvail => Sys2Proof.Machine.execSAvail s
  | .sPeek => Sys2Proof.Machine.execSPeek s
  | .sPop1 => Sys2Proof.Machine.execSPop1 s
  | .sReadn n => Sys2Proof.Machine.execSReadn n s
  | .capture32 => Sys2Proof.Machine.execCapture32 s
  | .sum30 => Sys2Proof.Machine.execSum30 s
  | .be16 hi lo => Sys2Proof.Machine.execBe16 hi lo s
  | .unpack15 => Sys2Proof.Machine.execUnpack15 s
  | .cmp16 => Sys2Proof.Machine.execCmp16 s
  | .publish => Sys2Proof.Machine.execPublish s

end Sys2Proof.Machine
end

