-- ==== Sys2Proof/Machine/Schedule.lean ====
section
/-! DEFINITION. Machine/Schedule.lean: the moves of the three agents (10_state.md R10): the source's appends, the host's ticks and
reads, the reset between ticks, and the FSD's own operations inside a tick that is not carried out as one step. -/

namespace Sys2Proof.Machine

/-- The operation of the table a tick in progress performs next (41_tick_sync.md R80). -/
def phaseInstr : Phase → Instr
  | .count1 => .sAvail
  | .peek => .sPeek
  | .pop => .sPop1
  | .count2 => .sAvail
  | .capture => .capture32
  | .sum => .sum30
  | .unpack => .unpack15
  | .compare => .cmp16
  | .publish => .publish

/-- What comes after an operation of the tick, its answer known: the next operation, or the end of the tick with a cause
(41_tick_sync.md R80, R85: a straight line with four early exits). -/
def afterPhase (p : Phase) (r : Option Reply) : Phase ⊕ Cause :=
  match p with
  | .count1 => if r == some (.count 0) then .inr .idle else .inl .peek
  | .peek => if r == some (.byte Config.sentinel) then .inl .count2 else .inl .pop
  | .pop => .inr .resync
  | .count2 =>
    match r with
    | some (.count n) => if n < Config.frameLen then .inr .wait else .inl .capture
    | _ => .inr .wait
  | .capture => .inl .sum
  | .sum => .inl .unpack
  | .unpack => .inl .compare
  | .compare => if r == some (.bit true) then .inl .publish else .inr .reject
  | .publish => .inr .accept

/-- The tick in progress goes on to its next operation. -/
def State.goTo (s : State) (p : Phase) : State := { s with phase := some p }

/-- The tick in progress completes: it writes `result` and `cause`, its transients are discarded, and no tick is in progress
(60_exceptions.md R115). -/
def State.completeTick (s : State) (c : Cause) : State :=
  { (s.discard.endTick c) with phase := none, reply := none }

/-- The tick in progress, one operation further. -/
def State.advance (s : State) (p : Phase) : State :=
  match afterPhase p s.reply with
  | .inl q => s.goTo q
  | .inr c => s.completeTick c

/-- The FSD moves: the next operation of the tick in progress. Between ticks it has nothing to do ("a tick is the only thing the FSD
ever does", 10_state.md R10). -/
def microStep (s : State) : Answer :=
  match s.phase with
  | none => .next s
  | some p =>
    match exec (phaseInstr p) s with
    | .next t => .next (t.advance p)
    | .fault r => .fault r
    | .refused r => .refused r

/-- The host starts a tick that is carried out operation by operation (20_memory.md R39, R42). -/
def startTick (s : State) : Answer :=
  match s.phase with
  | some _ => .refused .overlappingTick
  | none => .next (s.goTo .count1)

/-- The source appends bytes, at any moment between two operations, within its capacity (20_memory.md R31). -/
def pushBytes (bs : List Byte) (s : State) : Answer :=
  if withinCap s.cap (s.S.length + bs.length) then .next (s.append bs)
  else .refused .overCapacity

/-- The source makes up to `n` more bytes of `In` available, at any moment between two operations: as many as `CAP` and `len(In)`
allow (20_memory.md R31). -/
def arriveBytes (n : Nat) (s : State) : Answer :=
  .next (s.deliver (s.canArrive n))

/-- The host reads `R[i]`, outside a tick (10_state.md R12). Before the first success it gets the free value that the register
holds (70_reset_and_hazards.md R131). -/
def readField (i : Fin 15) (s : State) : Answer :=
  match s.phase with
  | some _ => .refused .readDuringTick
  | none => .next { s with readData := some (readingGet s.R i) }

/-- A reset, modelled only between ticks (70_reset_and_hazards.md R132). -/
def resetStep (s : State) : Answer :=
  match s.phase with
  | some _ => .refused .resetDuringTick
  | none => .next s.resetBetweenTicks

/-- One move of one agent. -/
def perform (m : Stmt) (s : State) : Answer :=
  match m with
  | .push bs => pushBytes bs s
  | .arrive n => arriveBytes n s
  | .tick => exec .tick s
  | .start => startTick s
  | .fsd => microStep s
  | .read i => readField i s
  | .reset => resetStep s
  | .otherConsumer _ => .refused .secondConsumer
  | .alterStream _ => .refused .streamAltered

/-- The move that comes next: the next scenario statement; where none is left, a tick in progress goes on, and between ticks it is
the next move of the parameter `Schedule` (00_scope.md R5). -/
def State.nextMove (s : State) : Stmt :=
  match s.schedule, s.phase with
  | m :: _, _ => m
  | [], some _ => .fsd
  | [], none => (Config.schedule s.turn).stmt

/-- The state with its next move taken off the schedule it comes from. -/
def State.takeMove (s : State) : State :=
  match s.schedule, s.phase with
  | _ :: rest, _ => { s with schedule := rest }
  | [], some _ => s
  | [], none => { s with turn := s.turn + 1 }

/-- A tick carried out operation by operation, the source appending one list of bytes before each operation; appends that come
after the tick's end stay appends (20_memory.md R39, R42). -/
def serialTick : List (List Byte) → State → Answer
  | [], s => .next s
  | bs :: rest, s =>
    match microStep (s.append bs) with
    | .next t => serialTick rest t
    | .fault r => .fault r
    | .refused r => .refused r

end Sys2Proof.Machine
end

