-- ==== Sys2Proof/Machine/Step.lean ====
section
/-! DEFINITION. Machine/Step.lean: one step of the machine, and how the host places an instruction before it. -/

namespace Sys2Proof.Machine

/-- One step: the next move of the agent whose turn it is. -/
def step (s : State) : Host.Outcome State Fault Refusal :=
  perform s.nextMove s.takeMove

/-- The state with a table word placed before the next step: the stream holds the bytes that stand for it (a word of no bits, the
entry TICK, asks for none), no tick is in progress, and the host's next move is a tick. Log entry 12. -/
def State.withFetchWord (s : State) (nbits w : Nat) : State :=
  { s with
    S := (tableStream nbits w).getD s.S
    phase := none
    schedule := .tick :: s.schedule }

end Sys2Proof.Machine
end

