-- ==== Sys2Proof/WellFormed.lean ====
section
/-! DEFINITION. WellFormed.lean: which operations the FSD can issue. -/

namespace Sys2Proof

/-- An operation the FSD issues. The one check is on the bulk read: "The only `N` the FSD ever passes to the bulk read is 32"
(20_memory.md R38). The meaning of `S.READN` does not rest on it: it is defined for every `n`. -/
def Instr.wellFormed : Instr → Bool
  | .tick => true
  | .tIdle => true
  | .tResync => true
  | .tWait => true
  | .tReject => true
  | .tAccept => true
  | .sAvail => true
  | .sPeek => true
  | .sPop1 => true
  | .sReadn n => n == Config.frameLen
  | .capture32 => true
  | .sum30 => true
  | .be16 _ _ => true
  | .unpack15 => true
  | .cmp16 => true
  | .publish => true

end Sys2Proof
end

