-- ==== Sys2Proof/Safety.lean ====
section
/-! DEFINITION. Safety.lean: what counts as a safe state and a legal move, in the spec's own arithmetic (natural numbers, not the
machine's bit vectors), for the statements to be read against the spec. -/

namespace Sys2Proof.Machine

/-- `F[0] + ... + F[29]` as a natural number (42_capture_checksum.md R92). -/
def byteSum (f : List Byte) : Nat := ((List.range 30).map fun k => (frameByte f k).toNat).sum

/-- `256 * F[2+2i] + F[2+2i+1]` as a natural number (43_deserialize_publish.md R100, R101). -/
def fieldValue (f : List Byte) (i : Nat) : Nat :=
  256 * (frameByte f (2 + 2 * i)).toNat + (frameByte f (2 + 2 * i + 1)).toNat

/-- The 32 bytes of a block that begins with the sentinel: what `CAPTURE32` can capture (42_capture_checksum.md R91). -/
abbrev Captured (f : List Byte) : Prop := f.length = 32 ∧ frameByte f 0 = 0x42#8

/-- The checksum equation of a frame (42_capture_checksum.md R95), in natural numbers. -/
abbrev ChecksumHolds (f : List Byte) : Prop := byteSum f % 65536 = fieldValue f 14

/-- A reading is the deserialization of a frame: each of its fields is the big-endian value of its byte pair
(43_deserialize_publish.md R101). -/
abbrev ReadingOfFrame (r : Reading) (f : List Byte) : Prop :=
  ∀ i : Fin 15, (readingGet r i).toNat = fieldValue f i.val

/-- The sum of the bytes of fields 0 to 13 of a reading, `(v >> 8) + (v & 0xFF)` each (43_deserialize_publish.md R103). -/
def fieldByteSum (r : Reading) : Nat :=
  (((readingFields r).take 14).map fun v => (v.toNat >>> 8) + (v.toNat &&& 0xFF)).sum

/-- A reading that came from a valid frame: "Every reading ever held in `R` came from a valid frame" (42_capture_checksum.md R95). -/
def ValidReading (r : Reading) : Prop := ∃ f, Captured f ∧ ChecksumHolds f ∧ ReadingOfFrame r f

/-- The two outcomes of the last tick agree, and `published` agrees with them (10_state.md R13, R16, R17, R24). -/
def OutcomeInv (s : State) : Prop :=
  match s.cause with
  | none => s.result = .noData ∧ s.published = false
  | some .accept => s.result = .success ∧ s.published = true
  | some c => s.result = c.result

/-- What each point of a tick in progress knows of the stream and the transients (41_tick_sync.md R80, 42_capture_checksum.md R91,
10_state.md R19, R20); between ticks the transients hold nothing. -/
def PhaseInv (s : State) : Prop :=
  match s.phase with
  | none => s.F = none ∧ s.sum = none ∧ s.C = none ∧ s.reply = none
  | some .count1 => s.F = none ∧ s.sum = none ∧ s.C = none ∧ s.reply = none
  | some .peek => s.F = none ∧ s.sum = none ∧ s.C = none ∧ s.S ≠ []
  | some .pop => s.F = none ∧ s.sum = none ∧ s.C = none ∧ ∃ b rest, s.S = b :: rest ∧ b ≠ 0x42#8
  | some .count2 => s.F = none ∧ s.sum = none ∧ s.C = none ∧ s.S.head? = some 0x42#8
  | some .capture =>
    s.F = none ∧ s.sum = none ∧ s.C = none ∧ s.S.head? = some 0x42#8 ∧ 32 ≤ s.S.length
  | some .sum => ∃ f, Captured f ∧ s.F = some f ∧ s.sum = none ∧ s.C = none
  | some .unpack => ∃ f, Captured f ∧ s.F = some f ∧ s.sum = some (frameSum f) ∧ s.C = none
  | some .compare =>
    ∃ f, Captured f ∧ s.F = some f ∧ s.sum = some (frameSum f) ∧ s.C = some (unpackFrame f)
  | some .publish =>
    ∃ f, Captured f ∧ ChecksumHolds f ∧ s.F = some f ∧ s.sum = some (frameSum f) ∧
      s.C = some (unpackFrame f)

/-- THE INVARIANT of the machine: the unread count is within `CAP` (20_memory.md R31); a published reading came from a valid frame
(42_capture_checksum.md R95); the outcome flags agree; a tick in progress knows what its earlier steps established. -/
structure Inv (s : State) : Prop where
  capacity : withinCap s.cap s.S.length = true
  reading : s.published = true → ValidReading s.R
  outcome : OutcomeInv s
  phase : PhaseInv s

/-- The moves that the contract allows in a state (60_exceptions.md R121, 20_memory.md R31, R44). -/
def InContract (m : Stmt) (s : State) : Prop :=
  match m with
  | .push bs => withinCap s.cap (s.S.length + bs.length) = true
  | .arrive _ => True
  | .tick => s.phase = none
  | .start => s.phase = none
  | .fsd => True
  | .read _ => s.phase = none
  | .reset => s.phase = none
  | .otherConsumer _ => False
  | .alterStream _ => False

/-- The unread stream is `In[cur .. arr-1]` (10_state.md R14), `In` counted from where the last reset found it: the bytes of the
parameter `In` just before the position of the next arrival, which is within `len(In)`. -/
structure FromIn (s : State) : Prop where
  arrived : s.cur + s.S.length ≤ s.inPos
  slice : s.S = inSlice (s.inPos - s.S.length) s.S.length
  within : withinCap Config.lenIn s.inPos = true

/-- `PortBinding` and `TickLatency` (00_scope.md R5): a signal-level realisation, any type of signals with one function for a clock
cycle, that "must refine the transactions": seen through `view`, a cycle does nothing or is a step of the machine, and a step that the
machine can make has been made within `tickLatency` cycles, a finite number. No signal is invented here, and no rule of the machine
depends on a binding (10_state.md R23, 70_reset_and_hazards.md R140). -/
structure PortBinding where
  Signals : Type
  view : Signals → State
  clock : Signals → Signals
  tickLatency : Nat
  refines : ∀ x, view (clock x) = view x ∨ step (view x) = .next (view (clock x))
  latency : ∀ x t, step (view x) = .next t → ∃ n, n < tickLatency ∧
    (∀ m, m ≤ n → view (clock^[m] x) = view x) ∧ view (clock^[n + 1] x) = t

end Sys2Proof.Machine
end

