-- ==== Sys2Proof/Certificates/Slice0/Obligations.lean ====
section
/-! DEFINITION. Certificates/Slice0/Obligations.lean: the statements about the machine, each from the spec's numbered rules. -/

open Sys2Proof Sys2Proof.Machine

/-! ## The step and the decoder -/

/-- A scheduled TICK, with no tick in progress, is `exec` of the operation the decoder reads from the bytes at the cursor; where no
scenario statement is left the step is the next move of the parameter `Schedule`: a tick the same, an arrival of the next bytes of `In`,
or a host read of `R`. The model's choices: the scenario, and that it comes first, log entry 6; `In` as a parameter beside the scenario,
log entry 4; the field that holds what a read got, log entry 7; and that a read before the first accept, where R131 puts it outside the
contract, answers the free value the register holds and is no fault, log entry 2. -/
def Obligations.StepRunsDecodedInstruction : Prop :=
  ∀ s : State, s.phase = none →
    (decode s.S).wellFormed = true ∧
    (∀ rest, s.schedule = .tick :: rest →
      step s = exec (decode s.S) { s with schedule := rest }) ∧
    (s.schedule = [] → step s =
      match Config.schedule s.turn with
      | .tick => exec (decode s.S) { s with turn := s.turn + 1 }
      | .arrive n => .next (State.deliver { s with turn := s.turn + 1 } (s.canArrive n))
      | .read i => .next { s with turn := s.turn + 1, readData := some (readingGet s.R i) })

/-- Inside a tick that is carried out operation by operation, one step is `exec` of the operation the tick stands at, and then the
tick's advance; a refusal or a fault of the operation is the step's own (the operation by
operation tick and the statement FSD are the model's choice, log entry 6). -/
def Obligations.StepRunsTickOperation : Prop :=
  ∀ (s : State) (p : Phase), s.phase = some p →
    (s.schedule = [] →
      (∀ t, exec (phaseInstr p) s = .next t → step s = .next (t.advance p)) ∧
      (∀ r, exec (phaseInstr p) s = .refused r → step s = .refused r)) ∧
    (∀ rest, s.schedule = .fsd :: rest →
      (∀ t, exec (phaseInstr p) { s with schedule := rest } = .next t →
        step s = .next (t.advance p)) ∧
      (∀ r, exec (phaseInstr p) { s with schedule := rest } = .refused r → step s = .refused r))

/-- A table word placed before a step is the instruction that step runs (the convention of table words is the model's choice, log
entry 12). -/
def Obligations.PlacedWordRuns : Prop :=
  ∀ (s : State) (nbits w : Nat) (i : Instr), decodeTableWord nbits w = some i →
    step (s.withFetchWord nbits w) =
      exec i { s.withFetchWord nbits w with schedule := s.schedule }

/-- A few table words, keys and one frame with their bits written out from the spec's selection table and frame layout, decode to
what they stand for (that a small number is a key and a 256-bit number a frame is the model's choice, log entry 12). -/
def Obligations.SampleWordsDecode : Prop :=
  decodeTableWord 8 0b0000 = some .tIdle ∧
  decodeTableWord 8 0b0100 = some .tResync ∧
  decodeTableWord 8 0b1101 = some .tResync ∧
  decodeTableWord 8 0b0110 = some .tWait ∧
  decodeTableWord 8 0b1110 = some .tReject ∧
  decodeTableWord 8 0b1111 = some .tAccept ∧
  decodeTableWord 256 0x424D001C0102030405060708090A0B0C0D0E0F101112131415161718191A020A =
    some .tAccept ∧
  decodeTableWord 256 0x424D001C0102030405060708090A0B0C0D0E0F101112131415161718191A020B =
    some .tReject

/-- The selection table: the four key bits, the patterns (disjoint, and covering every key), and the operation each condition on the
stream selects, in order. -/
def Obligations.SelectionTable : Prop :=
  (∀ s : List Byte,
    (keyGe32 s = true ↔ 32 ≤ s.length) ∧
    (keyNz s = true ↔ 1 ≤ s.length) ∧
    (keyHs s = true ↔ 1 ≤ s.length ∧ frameByte s 0 = 0x42#8) ∧
    (keyCk s = true ↔ 32 ≤ s.length ∧ frameByte s 0 = 0x42#8 ∧ ChecksumHolds s) ∧
    streamKey s = bit1 (keyGe32 s) ++ bit1 (keyNz s) ++ bit1 (keyHs s) ++ bit1 (keyCk s) ∧
    keySelects (selectOp s) (streamKey s) = true ∧
    (keyGe32 s = true → keyNz s = true)) ∧
  (∀ (k : BitVec 4) (c : Cause), keySelects c k = true ↔ decodeKey k = c) ∧
  (keyMask .idle, keyMatch .idle) = (0b0100#4, 0b0000#4) ∧
  (keyMask .resync, keyMatch .resync) = (0b0110#4, 0b0100#4) ∧
  (keyMask .wait, keyMatch .wait) = (0b1110#4, 0b0110#4) ∧
  (keyMask .reject, keyMatch .reject) = (0b1111#4, 0b1110#4) ∧
  (keyMask .accept, keyMatch .accept) = (0b1111#4, 0b1111#4) ∧
  (Cause.idle.consumes, Cause.idle.result) = (0, .noData) ∧
  (Cause.resync.consumes, Cause.resync.result) = (1, .noData) ∧
  (Cause.wait.consumes, Cause.wait.result) = (0, .noData) ∧
  (Cause.reject.consumes, Cause.reject.result) = (32, .noData) ∧
  (Cause.accept.consumes, Cause.accept.result) = (32, .success) ∧
  (∀ s t : State, s.phase = none → exec .tick s = .next t →
    t.cause = some (selectOp s.S) ∧ t.result = (selectOp s.S).result ∧
      t.S = s.S.drop (selectOp s.S).consumes ∧ t.cur = s.cur + (selectOp s.S).consumes)

/-- A frame that carries any marker and any fifteen fields, whatever follows it, decodes to T.ACCEPT when its checksum field is the sum
of its bytes and to T.REJECT otherwise; no bit of the encoding is dropped. -/
def Obligations.FrameDecodesByItsChecksum : Prop :=
  ∀ (m : Byte) (c : Reading) (rest : List Byte),
    decode (encodeFrame m c ++ rest) =
      (if c.checksum.toNat = byteSum (encodeFrame m c) then .tAccept else .tReject) ∧
    (encodeFrame m c).length = 32 ∧
    frameByte (encodeFrame m c) 0 = 0x42#8 ∧
    frameByte (encodeFrame m c) 1 = m ∧
    unpackFrame (encodeFrame m c) = c ∧
    decode (encodeFrame m (withChecksum m c) ++ rest) = .tAccept

/-- The encoder gives each of the five tick operations its key and none to the other eleven rows; and every tick operation's encoding
decodes to it, with the don't-care bits of its pattern at every value (as a table word: the model's choice, log entry 12). -/
def Obligations.TickKeysDecodeToTheirRows : Prop :=
  (∀ c : Cause, encode (tickInstr c) = some (keyMatch c)) ∧
  encode .tick = none ∧
  encode .sAvail = none ∧ encode .sPeek = none ∧ encode .sPop1 = none ∧
  (∀ n, encode (.sReadn n) = none) ∧
  encode .capture32 = none ∧ encode .sum30 = none ∧ (∀ hi lo, encode (.be16 hi lo) = none) ∧
  encode .unpack15 = none ∧ encode .cmp16 = none ∧ encode .publish = none ∧
  ∀ (i : Instr) (k : BitVec 4), encode i = some k →
    ∃ c, tickInstr c = i ∧
      ∀ x : BitVec 4, decodeKey (k ||| (x &&& ~~~ keyMask c)) = c ∧
        decodeTableWord 8 ((k ||| (x &&& ~~~ keyMask c)).toNat) = some i

/-! ## The tick -/

/-- The tick as a total function: the five rows of the table of R81, the first condition that holds, with the whole next state. -/
def Obligations.TickTable : Prop :=
  ∀ s : State, s.phase = none →
    (∃ t, exec .tick s = .next t) ∧
    (s.S = [] →
      exec .tick s = .next { s with result := .noData, cause := some .idle }) ∧
    (∀ b rest, s.S = b :: rest → b ≠ 0x42#8 →
      exec .tick s = .next
        { s with S := rest, cur := s.cur + 1, result := .noData, cause := some .resync }) ∧
    (∀ rest, s.S = 0x42#8 :: rest → s.S.length < 32 →
      exec .tick s = .next { s with result := .noData, cause := some .wait }) ∧
    (∀ f rest, s.S = f ++ rest → Captured f → ¬ ChecksumHolds f →
      exec .tick s = .next
        { s with
          S := rest, cur := s.cur + 32, F := none, sum := none, C := none,
          result := .noData, cause := some .reject }) ∧
    (∀ f rest, s.S = f ++ rest → Captured f → ChecksumHolds f →
      ∃ r, ReadingOfFrame r f ∧
        exec .tick s = .next
          { s with
            S := rest, cur := s.cur + 32, R := r, published := true, F := none, sum := none,
            C := none, result := .success, cause := some .accept })

/-- A tick reports exactly one cause, by the order of the steps. -/
def Obligations.OneCauseByPriority : Prop :=
  ∀ s : State, s.phase = none → ∃ t, exec .tick s = .next t ∧
    t.cause = some
      (if s.S.length = 0 then .idle
       else if frameByte s.S 0 ≠ 0x42#8 then .resync
       else if s.S.length < 32 then .wait
       else if ¬ ChecksumHolds s.S then .reject
       else .accept)

/-- Success is exactly the arrival of a valid frame at the head. -/
def Obligations.SuccessExactlyOnValidFrame : Prop :=
  ∀ s : State, s.phase = none → ∃ t, exec .tick s = .next t ∧
    (t.result = .success ↔
      32 ≤ s.S.length ∧ frameByte s.S 0 = 0x42#8 ∧ byteSum s.S = fieldValue s.S 14)

/-- The tick is a function of the stream alone: two states with the same stream, whatever else they hold, have the same outcome, consume
the same bytes, and publish the same reading or keep their own. -/
def Obligations.TickDependsOnStreamOnly : Prop :=
  ∀ s t : State, s.phase = none → t.phase = none → s.S = t.S →
    ∃ s' t', exec .tick s = .next s' ∧ exec .tick t = .next t' ∧
      s'.S = t'.S ∧ s'.result = t'.result ∧ s'.cause = t'.cause ∧
      s'.cur + t.cur = t'.cur + s.cur ∧
      (s'.result = .success → s'.R = t'.R ∧ s'.published = true ∧ t'.published = true) ∧
      (s'.result = .noData →
        s'.R = s.R ∧ t'.R = t.R ∧ s'.published = s.published ∧ t'.published = t.published)

/-- TICK does what the tick operation its stream selects does. -/
def Obligations.TickIsSelectedOperation : Prop :=
  ∀ s : State, exec .tick s = exec (decode s.S) s

/-- With fewer than 32 bytes available a tick finds no data and consumes at most one byte, and that only if it is not the sentinel. -/
def Obligations.ShortStreamConsumesAtMostOne : Prop :=
  ∀ s : State, s.phase = none → s.S.length < 32 → ∃ t, exec .tick s = .next t ∧
    t.result = .noData ∧ t.R = s.R ∧ t.published = s.published ∧
    (t.S = s.S ∧ t.cur = s.cur ∨ (∃ b, s.S = b :: t.S) ∧ t.cur = s.cur + 1) ∧
    (t.cur = s.cur + 1 ↔ 1 ≤ s.S.length ∧ frameByte s.S 0 ≠ 0x42#8)

/-- The algorithm carried out operation by operation, with no arrival in between, ends as the tick of one step does; and steps 5 and 6
may be done in either order (starting a tick and carrying it out operation by operation are the model's choice, log entry 6). -/
def Obligations.AlgorithmStepsMakeTheTick : Prop :=
  (∀ s t : State, s.phase = none → PhaseInv s → startTick s = .next t →
    serialTick (List.replicate 8 []) t = exec .tick s) ∧
  (∀ s a b : State, exec .sum30 s = .next a → exec .unpack15 a = .next b →
    ∃ c, exec .unpack15 s = .next c ∧ exec .sum30 c = .next b)

/-- A tick carried out operation by operation, with any bytes arriving before each operation, ends as the tick of one step at some
instant within it does: some of the arrivals come before that instant and the rest after (starting a tick and carrying it out operation
by operation are the model's choice, log entry 6). -/
def Obligations.SerialTickIsLinearizable : Prop :=
  ∀ (s t : State) (arrivals : List (List Byte)), s.phase = none → PhaseInv s →
    8 ≤ arrivals.length → startTick s = .next t →
    ∃ before after u, before ++ after = arrivals.flatten ∧
      exec .tick (s.append before) = .next u ∧
      serialTick arrivals t = .next (u.append after)

/-! ## The five tick operations -/

/-- T.IDLE: selected exactly by the empty stream; then nothing but the outcome changes, so that a further tick, with nothing arrived,
changes nothing; the algorithm ends after its one count, attempting no peek. -/
def Obligations.IdleTick : Prop :=
  (∀ s : List Byte, selectOp s = .idle ↔ s = []) ∧
  (∀ s : State, s.phase = none → s.S = [] →
    exec .tIdle s = .next { s with result := .noData, cause := some .idle }) ∧
  (∀ s t : State, s.phase = some .count1 → s.S = [] → microStep s = .next t →
    t.phase = none ∧ t.result = .noData ∧ t.cause = some .idle) ∧
  (∀ s t : State, s.phase = none → exec .tIdle s = .next t → exec .tick t = .next t)

/-- T.RESYNC: selected exactly by a head that is not the sentinel, whatever the count; exactly the head byte goes, and
where it was the only one the next tick, with nothing arrived, is T.IDLE. -/
def Obligations.ResyncTick : Prop :=
  (∀ s : List Byte, selectOp s = .resync ↔ 1 ≤ s.length ∧ frameByte s 0 ≠ 0x42#8) ∧
  (∀ (s : State) (b : Byte) (rest : List Byte), s.phase = none → s.S = b :: rest → b ≠ 0x42#8 →
    exec .tResync s = .next
      { s with S := rest, cur := s.cur + 1, result := .noData, cause := some .resync }) ∧
  (∀ (s t : State) (b : Byte), s.phase = none → s.S = [b] → exec .tResync s = .next t →
    exec .tick t = .next { t with result := .noData, cause := some .idle })

/-- T.WAIT: selected exactly by a sentinel at the head of 1 to 31 bytes; nothing but the outcome changes, so that the next tick, with
nothing arrived, is the same again. -/
def Obligations.WaitTick : Prop :=
  (∀ s : List Byte, selectOp s = .wait ↔ 1 ≤ s.length ∧ s.length ≤ 31 ∧ frameByte s 0 = 0x42#8) ∧
  (∀ s : State, s.phase = none → 1 ≤ s.S.length → s.S.length ≤ 31 → frameByte s.S 0 = 0x42#8 →
    exec .tWait s = .next { s with result := .noData, cause := some .wait }) ∧
  (∀ s t : State, s.phase = none → selectOp s.S = .wait → exec .tWait s = .next t →
    exec .tick t = .next t)

/-- T.REJECT: selected exactly by a sentinel at the head of at least 32 bytes whose checksum equation fails; the 32 bytes go, the
reading stays, the transients are discarded. -/
def Obligations.RejectTick : Prop :=
  (∀ s : List Byte, selectOp s = .reject ↔
    32 ≤ s.length ∧ frameByte s 0 = 0x42#8 ∧ ¬ ChecksumHolds s) ∧
  (∀ (s : State) (f rest : List Byte), s.phase = none → s.S = f ++ rest → Captured f →
    ¬ ChecksumHolds f →
    exec .tReject s = .next
      { s with
        S := rest, cur := s.cur + 32, F := none, sum := none, C := none,
        result := .noData, cause := some .reject })

/-- T.ACCEPT: selected exactly by a valid frame at the head; the 32 bytes go and every register takes the big-endian value of its byte
pair; nothing else about the frame is examined. -/
def Obligations.AcceptTick : Prop :=
  (∀ s : List Byte, selectOp s = .accept ↔
    32 ≤ s.length ∧ frameByte s 0 = 0x42#8 ∧ ChecksumHolds s) ∧
  (∀ (s : State) (f rest : List Byte), s.phase = none → s.S = f ++ rest → Captured f →
    ChecksumHolds f →
    ∃ r, ReadingOfFrame r f ∧
      exec .tAccept s = .next
        { s with
          S := rest, cur := s.cur + 32, R := r, published := true, F := none, sum := none,
          C := none, result := .success, cause := some .accept })

/-- A tick operation that the stream does not select, or while a tick is in progress, is refused (the first is the model's choice, log
entry 8). -/
def Obligations.TickOperationsRefusedElsewhere : Prop :=
  ∀ (s : State) (c : Cause),
    (s.phase ≠ none → exec (tickInstr c) s = .refused .overlappingTick ∧
      exec .tick s = .refused .overlappingTick) ∧
    (s.phase = none → selectOp s.S ≠ c →
      exec (tickInstr c) s = .refused (.notSelected (selectOp s.S)))

/-! ## The four source operations -/

/-- S.AVAIL answers the number of unread bytes and changes nothing; a later count in the same tick is never smaller; an answer that
saturates at 32 or more makes no difference to the tick. -/
def Obligations.AvailAnswersCount : Prop :=
  (∀ s : State, exec .sAvail s = .next { s with reply := some (.count s.S.length) }) ∧
  (∀ s : State, s.S.length = s.arr - s.cur) ∧
  (∀ (s : State) (bs : List Byte), s.S.length ≤ (s.append bs).S.length) ∧
  (∀ p, phaseInstr p = .sAvail ↔ p = .count1 ∨ p = .count2) ∧
  (∀ (p : Phase) (n m : Nat), (p = .count1 ∨ p = .count2) → 32 ≤ m →
    afterPhase p (some (.count (min n m))) = afterPhase p (some (.count n)))

/-- S.PEEK answers the head byte and changes nothing, so that it is idempotent; on an empty stream it is refused, and a tick comes to
it only from a count that is not 0. -/
def Obligations.PeekAnswersHead : Prop :=
  (∀ (s : State) (b : Byte) (rest : List Byte), s.S = b :: rest →
    exec .sPeek s = .next { s with reply := some (.byte b) } ∧
    exec .sPeek { s with reply := some (.byte b) } = .next { s with reply := some (.byte b) }) ∧
  (∀ s : State, s.S = [] → exec .sPeek s = .refused .emptyStream) ∧
  (∀ p, phaseInstr p = .sPeek ↔ p = .peek) ∧
  (∀ p r, afterPhase p r = .inl .peek ↔ p = .count1 ∧ r ≠ some (.count 0))

/-- S.POP1 removes exactly the head byte; on an empty stream it is refused; a tick comes to it only from a peek that did not see the
sentinel. -/
def Obligations.PopRemovesOneByte : Prop :=
  (∀ (s : State) (b : Byte) (rest : List Byte), s.S = b :: rest →
    exec .sPop1 s = .next { s with S := rest, cur := s.cur + 1 }) ∧
  (∀ s : State, s.S = [] → exec .sPop1 s = .refused .emptyStream) ∧
  (∀ p, phaseInstr p = .sPop1 ↔ p = .pop) ∧
  (∀ p r, afterPhase p r = .inl .pop ↔ p = .peek ∧ r ≠ some (.byte 0x42#8))

/-- S.READN delivers the first n bytes in stream order to the caller's buffer and removes them; with fewer available it is refused;
step 4 of a tick is this read with n = 32. -/
def Obligations.ReadTakesExactlyN : Prop :=
  (∀ (s : State) (n : Nat) (buf rest : List Byte), s.S = buf ++ rest → buf.length = n →
    exec (.sReadn n) s = .next
      { s with S := rest, cur := s.cur + n, F := some buf, reply := some (.bytes buf) }) ∧
  (∀ (s : State) (n : Nat), s.S.length < n → exec (.sReadn n) s = .refused .shortStream) ∧
  (∀ s t : State, exec (.sReadn 32) s = .next t →
    exec .capture32 s = .next { t with reply := s.reply }) ∧
  (∀ p, phaseInstr p = .capture32 ↔ p = .capture)

/-! ## The six internal steps -/

/-- CAPTURE32 moves exactly 32 bytes, unaltered, from the head of the stream to the frame buffer; popping them one at a time leaves the
same stream. -/
def Obligations.CaptureTakesThirtyTwo : Prop :=
  ∀ (s : State) (f rest : List Byte), s.S = f ++ rest → f.length = 32 →
    exec .capture32 s = .next { s with S := rest, cur := s.cur + 32, F := some f } ∧
    frameByte f 0 = frameByte s.S 0 ∧
    ((fun u : State => u.consume 1)^[32]) s = { s with S := rest, cur := s.cur + 32 }

/-- SUM30 sets sum to the sum of bytes 0..29 modulo 65536; the order of the bytes is immaterial and bytes 30 and 31 are not read. -/
def Obligations.SumIsByteSum : Prop :=
  (∀ (s : State) (f : List Byte), s.F = some f → f.length = 32 →
    ∃ v : Half, v.toNat = byteSum f % 65536 ∧ exec .sum30 s = .next { s with sum := some v }) ∧
  (∀ f g : List Byte, (f.take 30).Perm (g.take 30) → byteSum f = byteSum g)

/-- CMP16 answers the equality of all 16 bits of the computed checksum and field 14, the big-endian value of bytes 30 and 31 of
the frame it was decoded from; the answer, and nothing else, sends the tick to
PUBLISH or to the end with REJECT. -/
def Obligations.CompareIsEquality : Prop :=
  (∀ (s : State) (v : Half) (c : Reading), s.sum = some v → s.C = some c →
    exec .cmp16 s = .next
      { s with reply := some (.bit (decide (v.toNat = (readingGet c 14).toNat))) }) ∧
  (∀ f : List Byte, (readingGet (unpackFrame f) 14).toNat = fieldValue f 14) ∧
  afterPhase .compare (some (.bit true)) = .inl .publish ∧
  afterPhase .compare (some (.bit false)) = .inr .reject

/-- BE16 is 256*hi + lo, and a bijection from byte pairs to 16-bit words. -/
def Obligations.AssembleBigEndian : Prop :=
  (∀ (hi lo : Byte) (s : State), ∃ v : Half, v.toNat = 256 * hi.toNat + lo.toNat ∧
    exec (.be16 hi lo) s = .next { s with reply := some (.word v) }) ∧
  (∀ hi lo : Byte, highByte (assembleBE hi lo) = hi ∧ lowByte (assembleBE hi lo) = lo) ∧
  (∀ v : Half, assembleBE (highByte v) (lowByte v) = v ∧
    (highByte v).toNat = v.toNat >>> 8 ∧ (lowByte v).toNat = v.toNat &&& 0xFF)

/-- UNPACK15 fills the candidate, not R, with the fifteen big-endian values of bytes 2..31; bytes 0 and 1 are in no field; it is done
on every committed frame, before the comparison. -/
def Obligations.UnpackFillsCandidate : Prop :=
  (∀ (s : State) (f : List Byte), s.F = some f → f.length = 32 →
    ∃ c, ReadingOfFrame c f ∧ exec .unpack15 s = .next { s with C := some c }) ∧
  (∀ f g : List Byte, f.drop 2 = g.drop 2 → unpackFrame f = unpackFrame g) ∧
  (∀ r, afterPhase .sum r = .inl .unpack ∧ afterPhase .unpack r = .inl .compare)

/-- Lane i reads exactly two bytes of the frame and writes exactly field i: frames that agree on these two bytes agree on the field,
and changing a byte changes its own lane only. -/
def Obligations.LanesAreIndependent : Prop :=
  ∀ (f : List Byte) (k : Nat) (b : Byte) (i : Fin 15), f.length = 32 → k < 32 →
    (k ≠ 2 + 2 * i.val → k ≠ 2 + 2 * i.val + 1 →
      readingGet (unpackFrame (f.set k b)) i = readingGet (unpackFrame f) i) ∧
    (k = 2 + 2 * i.val ∨ k = 2 + 2 * i.val + 1 → b ≠ frameByte f k →
      readingGet (unpackFrame (f.set k b)) i ≠ readingGet (unpackFrame f) i)

/-- UNPACK15 is a bijection between bytes 2..31 and the fifteen values, and for a valid frame the secondary marker is determined by the
reading. -/
def Obligations.UnpackIsBijection : Prop :=
  (∀ (m : Byte) (c : Reading), unpackFrame (encodeFrame m c) = c ∧
    ∀ i : Fin 15,
      (frameByte (encodeFrame m c) (2 + 2 * i.val)).toNat = (readingGet c i).toNat >>> 8 ∧
      (frameByte (encodeFrame m c) (2 + 2 * i.val + 1)).toNat =
        (readingGet c i).toNat &&& 0xFF) ∧
  (∀ f : List Byte, Captured f → encodeFrame (frameByte f 1) (unpackFrame f) = f) ∧
  (∀ (m : Byte) (c : Reading), ChecksumHolds (encodeFrame m c) ↔
    (m.toNat : Int) =
      (((readingGet c 14).toNat : Int) - 0x42 - (fieldByteSum c : Int)) % 65536)

/-- PUBLISH copies all fifteen candidate values to R in one step and sets published; it is not observable where they are equal; a tick
comes to it only from a true comparison. -/
def Obligations.PublishWritesReading : Prop :=
  (∀ (s : State) (c : Reading), s.C = some c →
    exec .publish s = .next { s with R := c, published := true }) ∧
  (∀ s : State, s.C = some s.R → s.published = true → exec .publish s = .next s) ∧
  (∀ p r, afterPhase p r = .inl .publish ↔ p = .compare ∧ r = some (.bit true))

/-- An internal step carried out without its input is refused (the model's choice, log entry 9): CAPTURE32 with fewer than 32 bytes
available, SUM30 and UNPACK15 where `F` holds no 32-byte block, CMP16 where `sum` or `C` holds nothing, PUBLISH where `C` holds
nothing. -/
def Obligations.InternalStepsWithoutInputAreRefused : Prop :=
  ∀ s : State,
    (s.S.length < 32 → exec .capture32 s = .refused .shortStream) ∧
    (s.F = none → exec .sum30 s = .refused .noFrame ∧ exec .unpack15 s = .refused .noFrame) ∧
    (∀ f, s.F = some f → f.length ≠ 32 →
      exec .sum30 s = .refused .noFrame ∧ exec .unpack15 s = .refused .noFrame) ∧
    (s.sum = none → exec .cmp16 s = .refused .noSum) ∧
    (∀ v, s.sum = some v → s.C = none → exec .cmp16 s = .refused .noCandidate) ∧
    (s.C = none → exec .publish s = .refused .noCandidate)

/-! ## The checksum -/

/-- The sum never wraps: thirty bytes sum to at most 7650, the computed checksum of a captured frame lies in 66..7461, and a frame
whose checksum field is outside that range is never accepted. -/
def Obligations.SumNeverWraps : Prop :=
  (∀ f : List Byte, byteSum f ≤ 7650 ∧ (frameSum f).toNat = byteSum f) ∧
  (∀ f : List Byte, Captured f → 66 ≤ byteSum f ∧ byteSum f ≤ 7461) ∧
  (∀ (s : List Byte), (fieldValue s 14 < 0x0042 ∨ 0x1D25 < fieldValue s 14) →
    selectOp s ≠ .accept)

/-- What the checksum catches: any change of one byte at offsets 1..31 of a valid frame; and what it does not: any permutation of
offsets 1..29, and any changes to these offsets whose differences cancel. -/
def Obligations.ChecksumCatchesOneByte : Prop :=
  (∀ (f : List Byte) (k : Nat) (b : Byte), Captured f → ChecksumHolds f → 1 ≤ k → k < 32 →
    b ≠ frameByte f k → Captured (f.set k b) ∧ ¬ ChecksumHolds (f.set k b)) ∧
  (∀ (f rest : List Byte) (b : Byte), Captured f → b ≠ 0x42#8 →
    selectOp (f.set 0 b ++ rest) = .resync) ∧
  (∀ f g : List Byte, Captured f → ChecksumHolds f → Captured g →
    f.drop 30 = g.drop 30 → ((f.drop 1).take 29).Perm ((g.drop 1).take 29) → ChecksumHolds g) ∧
  (∀ f g : List Byte, Captured f → ChecksumHolds f → Captured g →
    f.drop 30 = g.drop 30 → byteSum f = byteSum g → ChecksumHolds g)

/-- Swapping the two bytes of a field leaves the checksum as it was, and changes the decoded field unless they are equal. -/
def Obligations.ByteSwapKeepsSum : Prop :=
  ∀ (f : List Byte) (i : Nat), f.length = 32 → i < 14 →
    let g := (f.set (2 + 2 * i) (frameByte f (2 + 2 * i + 1))).set (2 + 2 * i + 1)
      (frameByte f (2 + 2 * i))
    byteSum g = byteSum f ∧
      (frameByte f (2 + 2 * i) ≠ frameByte f (2 + 2 * i + 1) → fieldValue g i ≠ fieldValue f i)

/-- A reading that came from a valid frame has a checksum field in 66..7461, which exceeds 66 and the sum of the other fields' bytes by
one byte's value, the secondary marker. -/
def Obligations.ValidReadingBounds : Prop :=
  ∀ r : Reading, ValidReading r →
    66 ≤ (readingGet r 14).toNat ∧ (readingGet r 14).toNat ≤ 7461 ∧
    ∃ m : Byte, (readingGet r 14).toNat = 66 + m.toNat + fieldByteSum r

/-! ## Invariants and rules of the whole machine -/

/-- The invariant holds at reset (the bytes that have arrived and the capacity are free values, log entries 3 and 5). -/
def Obligations.ResetHasInvariant : Prop := Inv State.reset

/-- Every step keeps the invariant: the stream within the source's capacity, every published reading from a valid frame, the outcome
flags in agreement, the tick in progress consistent with its step (the transients as fields and the moves as data are the model's
choices, log entries 1 and 6). -/
def Obligations.StepKeepsInvariant : Prop :=
  ∀ s t : State, Inv s → step s = .next t → Inv t

/-- The FSD itself never stops: in a state that meets the invariant, a step is refused only where the next scheduled move is outside
the contract, and every other step answers a next state, each move of the parameter `Schedule` among them. (`InContract` is the model's
in part: the push within CAP is log entry 5, the statements START and FSD log entry 6, the read and the reset inside a tick log entry 10;
that a read before the first accept, outside the contract by R131, answers and is no fault is log entry 2.) -/
def Obligations.OnlyOutOfContractMovesStop : Prop :=
  ∀ s : State, Inv s →
    (∀ m rest, s.schedule = m :: rest → InContract m s) → ∃ t, step s = .next t

/-- The schedules and calls that R121 puts outside the contract are refused, each by its own name, and with no scenario statement left
every step answers a next state, so that neither the FSD nor the parameter `Schedule` causes one of them. The model's choices: a start
inside a tick and the moves as data, log entry 6; the second consumer and the altered stream as statements, log entry 9; that every read
inside a tick is refused, not only one that overlaps the publish, log entry 10. The read before the first accept, which R131 puts outside
the contract, is not among the refused: the last clause covers it, and that it answers the free value the register holds and is no fault
is log entry 2. -/
def Obligations.OutOfContractIsRefused : Prop :=
  (∀ (s : State) (rest : List Stmt), s.phase ≠ none →
    (s.schedule = .tick :: rest → step s = .refused .overlappingTick) ∧
    (s.schedule = .start :: rest → step s = .refused .overlappingTick) ∧
    (∀ i, s.schedule = .read i :: rest → step s = .refused .readDuringTick)) ∧
  (∀ (s : State) (n : Nat) (rest : List Stmt), s.schedule = .otherConsumer n :: rest →
    step s = .refused .secondConsumer) ∧
  (∀ (s : State) (bs : List Byte) (rest : List Stmt), s.schedule = .alterStream bs :: rest →
    step s = .refused .streamAltered) ∧
  (∀ s : State, s.S = [] →
    exec .sPeek s = .refused .emptyStream ∧ exec .sPop1 s = .refused .emptyStream) ∧
  (∀ (s : State) (n : Nat), s.S.length < n → exec (.sReadn n) s = .refused .shortStream) ∧
  (∀ s : State, Inv s → s.schedule = [] → ∃ t, step s = .next t)

/-- Bytes leave the stream only at its head, 0, 1 or 32 of them in a step, and only as the cursor moves; they enter only at its tail by
the source's push or by an arrival of the next bytes of `In`, which move the arrived count alone; no byte in between changes. Reset alone
sets the cursor back. (The moves as data are the model's choice, log entry 6.) -/
def Obligations.StreamIsFifo : Prop :=
  ∀ s t : State, step s = .next t → s.nextMove ≠ .reset →
    (∀ bs, s.nextMove = .push bs →
      t.S = s.S ++ bs ∧ t.cur = s.cur ∧ t.arr = s.arr + bs.length) ∧
    (∀ n, s.nextMove = .arrive n → ∃ m, m ≤ n ∧
      t.S = s.S ++ inSlice s.inPos m ∧ t.cur = s.cur ∧ t.arr = s.arr + m) ∧
    ((∀ bs, s.nextMove ≠ .push bs) → (∀ n, s.nextMove ≠ .arrive n) →
      ∃ taken, s.S = taken ++ t.S ∧ t.cur = s.cur + taken.length ∧ t.arr = s.arr ∧
        (taken.length = 0 ∨ taken.length = 1 ∨ taken.length = 32))

/-- `S = In[cur .. arr-1]`: it holds at reset, and every step but a scenario's own push keeps it; the arrived count and the position in
`In` move together, a reset apart. (`In` as a parameter beside the scenario's pushes is the model's choice, log entry 4; how many bytes
have arrived at reset, log entry 3.) -/
def Obligations.StreamIsSliceOfInput : Prop :=
  FromIn State.reset ∧ State.reset.inPos = State.reset.arr ∧
  ∀ s t : State, FromIn s → step s = .next t → (∀ bs, s.nextMove ≠ .push bs) →
    FromIn t ∧ (s.nextMove ≠ .reset → t.inPos + s.arr = s.inPos + t.arr)

/-- R changes only in a step that ends a tick with SUCCESS, all of it at once, to the reading of a valid frame. -/
def Obligations.ReadingChangesOnlyOnSuccess : Prop :=
  ∀ s t : State, Inv s → step s = .next t → s.nextMove ≠ .reset → t.R ≠ s.R →
    t.phase = none ∧ t.result = .success ∧ t.cause = some .accept ∧ t.published = true ∧
      ∃ f, Captured f ∧ ChecksumHolds f ∧ ReadingOfFrame t.R f

/-- published is 0 from reset until the first accepted frame and 1 from then on: only a reset clears it, only an accept sets it. -/
def Obligations.PublishedIsSetByAcceptOnly : Prop :=
  State.reset.published = false ∧
  ∀ s t : State, Inv s → step s = .next t → s.nextMove ≠ .reset →
    (s.published = true → t.published = true) ∧
    (s.published = false → (t.published = true ↔ t.cause = some .accept))

/-- The outcome is that of the last completed tick: a step, a reset apart, that changes `result` or `cause` ends a tick and leaves a
cause and its result; inside a tick both stay as they were until its end (the operation by operation tick is the model's choice, log
entry 6). -/
def Obligations.OutcomeChangesOnlyAtTickEnd : Prop :=
  ∀ s t : State, step s = .next t → s.nextMove ≠ .reset →
    (t.result ≠ s.result ∨ t.cause ≠ s.cause →
      t.phase = none ∧ (∃ c, t.cause = some c ∧ t.result = c.result) ∧
        (s.phase = none ∧ s.nextMove = .tick ∨ s.phase ≠ none ∧ s.nextMove = .fsd)) ∧
    (t.phase ≠ none → t.result = s.result ∧ t.cause = s.cause) ∧
    (s.phase ≠ none → t.phase = none → ∃ c, t.cause = some c ∧ t.result = c.result)

/-- Through any port binding that refines the transactions, cycle after cycle: the invariant holds, and a change of R that is not a
reset's is seen only together with SUCCESS. (What a binding is, is the model's choice, log entry 11.) -/
def Obligations.PortBindingKeepsInvariant : Prop :=
  ∀ (b : PortBinding) (x : b.Signals), Inv (b.view x) →
    (∀ n, Inv (b.view (b.clock^[n] x))) ∧
    ((b.view (b.clock x)).R ≠ (b.view x).R → (b.view x).nextMove ≠ .reset →
      (b.view (b.clock x)).result = .success ∧ (b.view (b.clock x)).published = true)

/-! ## Several ticks -/

/-- A run of `g` bytes other than the sentinel before a valid frame: ticks 1 to `g` are T.RESYNC, tick `g + 1` is T.ACCEPT; and of any
block of 32 bytes that begins with the sentinel, tick `g + 1` is T.ACCEPT or T.REJECT. (The ticks stand in a scenario, the model's choice,
log entry 6.) -/
def Obligations.HuntingThenAccept : Prop :=
  ∀ (s : State) (g f rest : List Byte) (later : List Stmt), s.phase = none →
    s.schedule = List.replicate (g.length + 1) .tick ++ later → s.S = g ++ f ++ rest → (∀ b ∈ g, b ≠ 0x42#8) →
    (∀ k, k < g.length → ∃ t, Host.Core.run core (k + 1) s = .next t ∧
      t.cause = some .resync ∧ t.result = .noData ∧ t.S = g.drop (k + 1) ++ f ++ rest ∧
      t.cur = s.cur + (k + 1) ∧ t.R = s.R ∧ t.published = s.published) ∧
    (Captured f → ChecksumHolds f → ∃ t, Host.Core.run core (g.length + 1) s = .next t ∧
      t.cause = some .accept ∧ t.result = .success ∧ t.S = rest ∧
      t.cur = s.cur + g.length + 32 ∧ t.published = true ∧ ReadingOfFrame t.R f) ∧
    (∀ tail, f ++ rest = 0x42#8 :: tail → 32 ≤ (f ++ rest).length →
      ∃ t, Host.Core.run core (g.length + 1) s = .next t ∧
        (t.cause = some .accept ∨ t.cause = some .reject) ∧ t.S = (f ++ rest).drop 32)

/-- Buffered valid frames are accepted one per tick, oldest first, none skipped. (The ticks stand in a scenario, the model's choice, log
entry 6.) -/
def Obligations.OneFramePerTickOldestFirst : Prop :=
  ∀ (s : State) (frames : List (List Byte)) (rest : List Byte) (later : List Stmt),
    s.phase = none → s.schedule = List.replicate frames.length .tick ++ later → s.S = frames.flatten ++ rest →
    (∀ f ∈ frames, Captured f ∧ ChecksumHolds f) →
    ∀ k f, frames[k]? = some f → ∃ t, Host.Core.run core (k + 1) s = .next t ∧
      t.result = .success ∧ t.cause = some .accept ∧ t.published = true ∧
      ReadingOfFrame t.R f ∧ t.S = (frames.drop (k + 1)).flatten ++ rest ∧
      t.cur = s.cur + 32 * (k + 1)

/-- There is no timeout: with the sentinel at the head of fewer than 32 bytes and nothing arriving, every tick of any number is T.WAIT
and nothing else changes. (The ticks stand in a scenario, the model's choice, log entry 6.) -/
def Obligations.WaitHasNoTimeout : Prop :=
  ∀ (s : State) (n : Nat) (later : List Stmt), s.phase = none →
    s.schedule = List.replicate (n + 1) .tick ++ later → 1 ≤ s.S.length →
    s.S.length < 32 → frameByte s.S 0 = 0x42#8 →
    Host.Core.run core (n + 1) s =
      .next { s with result := .noData, cause := some .wait, schedule := later }

/-- A source that can hold fewer than 32 unread bytes never yields a frame: every tick finds no data, and once the sentinel is at the
head no tick consumes a byte (CAP as a field of the state is the model's choice, log entry 5). -/
def Obligations.SmallSourceNeverYieldsFrame : Prop :=
  ∀ (s : State) (c : Nat), Inv s → s.phase = none → s.cap = some c → c < 32 →
    ∃ t, exec .tick s = .next t ∧ t.result = .noData ∧ t.R = s.R ∧ t.published = s.published ∧
      (frameByte s.S 0 = 0x42#8 → t.S = s.S ∧ t.cur = s.cur)

/-! ## The source, the host, reset -/

/-- The source appends at the tail within its capacity, at any moment, inside a tick too, and changes nothing else; past its capacity
the push is refused (the model's choice, log entry 5). -/
def Obligations.PushAppendsAtTail : Prop :=
  ∀ (s : State) (bs : List Byte) (rest : List Stmt), s.schedule = .push bs :: rest →
    (s.cap = none → step s = .next { s with S := s.S ++ bs, schedule := rest }) ∧
    (∀ c, s.cap = some c → s.S.length + bs.length ≤ c →
      step s = .next { s with S := s.S ++ bs, schedule := rest }) ∧
    (∀ c, s.cap = some c → c < s.S.length + bs.length → step s = .refused .overCapacity)

/-- The source makes the next bytes of `In` available at the tail, inside a tick too, and changes nothing else: as many as asked for, or
as many of them as `CAP` and `len(In)` allow (that an arrival takes what is allowed is the model's choice, log entry 6). -/
def Obligations.ArrivalDeliversInput : Prop :=
  ∀ (s : State) (n : Nat) (rest : List Stmt), s.schedule = .arrive n :: rest →
    ∃ m, m ≤ n ∧
      step s = .next
        { s with S := s.S ++ inSlice s.inPos m, inPos := s.inPos + m, schedule := rest } ∧
      (withinCap s.cap s.S.length = true → withinCap s.cap (s.S.length + m) = true) ∧
      (withinCap Config.lenIn s.inPos = true → withinCap Config.lenIn (s.inPos + m) = true) ∧
      (m < n → withinCap s.cap (s.S.length + m + 1) = false ∨
        withinCap Config.lenIn (s.inPos + m + 1) = false)

/-- The host reads any register of R between ticks and disturbs nothing (the field that holds the answer is the model's choice, log
entry 7). Before the first accept, where R131 puts the read outside the contract, it answers the free value the register holds and is no
fault: the model's choice, log entry 2. -/
def Obligations.HostReadsRegister : Prop :=
  ∀ (s : State) (i : Fin 15) (rest : List Stmt), s.schedule = .read i :: rest → s.phase = none →
    step s = .next { s with readData := some (readingGet s.R i), schedule := rest }

/-- What reset leaves; nothing is said of R and of the stream, which are free values (log entries 2 and 3). -/
def Obligations.ResetLeaves : Prop :=
  State.reset.published = false ∧ State.reset.result = .noData ∧ State.reset.cause = none ∧
  State.reset.phase = none ∧ State.reset.F = none ∧ State.reset.sum = none ∧
  State.reset.C = none ∧ State.reset.cur = 0

/-- A reset between ticks leaves what reset leaves, and neither empties nor aligns the stream; a reset inside a tick is refused (the
model's choice, log entry 10: the spec does not specify it). -/
def Obligations.ResetBetweenTicksKeepsStream : Prop :=
  ∀ (s : State) (rest : List Stmt), s.schedule = .reset :: rest →
    (s.phase = none → ∃ t, step s = .next t ∧ t.published = false ∧ t.result = .noData ∧
      t.cause = none ∧ t.phase = none ∧ t.F = none ∧ t.sum = none ∧ t.C = none ∧ t.cur = 0 ∧
      t.S = s.S ∧ t.cap = s.cap ∧ t.schedule = rest) ∧
    (s.phase ≠ none → step s = .refused .resetDuringTick)

/-- A tick starts only where none is in progress: between ticks a start puts the tick at its first count, and inside one it is refused;
between ticks the FSD does nothing of its own (the model's statements START and FSD, log entry 6). -/
def Obligations.FsdActsOnlyInsideTicks : Prop :=
  ∀ (s : State) (rest : List Stmt),
    (s.phase = none → s.schedule = .start :: rest →
      step s = .next { s with phase := some .count1, schedule := rest }) ∧
    (s.phase ≠ none → s.schedule = .start :: rest → step s = .refused .overlappingTick) ∧
    (s.phase = none → s.schedule = .fsd :: rest → step s = .next { s with schedule := rest })

/-- The encodings of the result and of the cause labels. -/
def Obligations.OutcomeCodes : Prop :=
  Result.code .success = 1#1 ∧ Result.code .noData = 0#1 ∧
  Cause.code .idle = 0 ∧ Cause.code .resync = 1 ∧ Cause.code .wait = 2 ∧
  Cause.code .reject = 3 ∧ Cause.code .accept = 4 ∧
  ∀ c : Cause, c.result = .success ↔ c = .accept
end

