-- ==== Sys2Proof/Laws/Frame.lean ====
section
/-! SUPPORT. Laws/Frame.lean: the small lemmas of the arithmetic on bytes, frames and readings. -/

namespace Sys2Proof.Machine

theorem zext16_toNat (b : Byte) : (zext16 b).toNat = b.toNat := by
  have h := b.isLt
  simp only [zext16, BitVec.toNat_setWidth]
  omega

theorem highByte_toNat (v : Half) : (highByte v).toNat = v.toNat / 256 := by
  have h := v.isLt
  simp only [highByte, BitVec.extractLsb'_toNat, Nat.shiftRight_eq_div_pow]
  omega

theorem lowByte_toNat (v : Half) : (lowByte v).toNat = v.toNat % 256 := by
  simp [lowByte]

theorem assembleBE_toNat (hi lo : Byte) :
    (assembleBE hi lo).toNat = 256 * hi.toNat + lo.toNat := by
  have h1 := hi.isLt
  have h2 := lo.isLt
  have e : (zext16 hi <<< 8).toNat = 2 ^ 8 * hi.toNat := by
    rw [BitVec.toNat_shiftLeft, zext16_toNat, Nat.shiftLeft_eq]
    omega
  rw [assembleBE, BitVec.toNat_or, e, zext16_toNat, ← Nat.two_pow_add_eq_or_of_lt h2]

@[simp] theorem highByte_assembleBE (hi lo : Byte) : highByte (assembleBE hi lo) = hi := by
  apply BitVec.eq_of_toNat_eq
  have h2 := lo.isLt
  rw [highByte_toNat, assembleBE_toNat]
  omega

@[simp] theorem lowByte_assembleBE (hi lo : Byte) : lowByte (assembleBE hi lo) = lo := by
  apply BitVec.eq_of_toNat_eq
  have h2 := lo.isLt
  rw [lowByte_toNat, assembleBE_toNat]
  omega

@[simp] theorem assembleBE_high_low (v : Half) : assembleBE (highByte v) (lowByte v) = v := by
  apply BitVec.eq_of_toNat_eq
  rw [assembleBE_toNat, highByte_toNat, lowByte_toNat]
  omega

@[simp] theorem readingGet_readingOf (f : Fin 15 → Half) (i : Fin 15) :
    readingGet (readingOf f) i = f i := by
  fin_cases i <;> rfl

@[simp] theorem readingOf_readingGet (r : Reading) : readingOf (readingGet r) = r := rfl

theorem reading_ext {r t : Reading} (h : ∀ i, readingGet r i = readingGet t i) : r = t := by
  rw [← readingOf_readingGet r, ← readingOf_readingGet t, funext h]

theorem readingGet_checksum (r : Reading) : readingGet r Config.ckIdx = r.checksum := rfl

@[simp] theorem readingGet_unpackFrame (f : List Byte) (i : Fin 15) :
    readingGet (unpackFrame f) i = frameField f i.val := by
  rw [unpackFrame, readingGet_readingOf]

theorem unpackFrame_checksum (f : List Byte) : (unpackFrame f).checksum = frameField f 14 := rfl

theorem frameField_toNat (f : List Byte) (i : Nat) : (frameField f i).toNat = fieldValue f i := by
  simp [frameField, fieldValue, assembleBE_toNat, Config.markLen]

theorem readingOfFrame_unpackFrame (f : List Byte) : ReadingOfFrame (unpackFrame f) f := by
  intro i
  rw [readingGet_unpackFrame, frameField_toNat]

theorem readingOfFrame_unique {r : Reading} {f : List Byte} (h : ReadingOfFrame r f) :
    r = unpackFrame f := by
  refine reading_ext fun i => BitVec.eq_of_toNat_eq ?_
  rw [h i, readingOfFrame_unpackFrame f i]

theorem sumBytes_toNat (bs : List Byte) (acc : Half) :
    (sumBytes acc bs).toNat = (acc.toNat + (bs.map BitVec.toNat).sum) % 65536 := by
  induction bs generalizing acc with
  | nil =>
    have h := acc.isLt
    simp only [sumBytes, List.map_nil, List.sum_nil]
    omega
  | cons b bs ih =>
    simp only [sumBytes, ih, BitVec.toNat_add, zext16_toNat, List.map_cons, List.sum_cons]
    omega

/-- The sum of the first `n` bytes, offset by offset, bytes past the end counting 0. -/
theorem sum_range_frameByte (f : List Byte) (n : Nat) :
    ((List.range n).map fun k => (frameByte f k).toNat).sum = ((f.take n).map BitVec.toNat).sum := by
  induction f generalizing n with
  | nil => simp [frameByte]
  | cons b f ih =>
    cases n with
    | zero => simp
    | succ n =>
      rw [List.range_succ_eq_map]
      simp only [List.map_cons, List.map_map, List.sum_cons, List.take_succ_cons]
      rw [← ih n]
      simp only [frameByte, List.getD_cons_zero]
      congr 1

theorem byteSum_eq (f : List Byte) : byteSum f = ((f.take 30).map BitVec.toNat).sum :=
  sum_range_frameByte f 30

theorem frameSum_toNat (f : List Byte) : (frameSum f).toNat = byteSum f % 65536 := by
  rw [byteSum_eq, frameSum, sumBytes_toNat]
  simp [Config.sumLen]

theorem sum_toNat_le (bs : List Byte) : (bs.map BitVec.toNat).sum ≤ 255 * bs.length := by
  induction bs with
  | nil => simp
  | cons b bs ih =>
    have h := b.isLt
    simp only [List.map_cons, List.sum_cons, List.length_cons]
    omega

theorem byteSum_le (f : List Byte) : byteSum f ≤ 7650 := by
  have h := sum_toNat_le (f.take 30)
  rw [← byteSum_eq] at h
  have := List.length_take_le 30 f
  omega

theorem frameValid_iff (f : List Byte) : frameValid f = true ↔ ChecksumHolds f := by
  rw [frameValid, sameSum, beq_iff_eq, unpackFrame_checksum, ← BitVec.toNat_inj, frameSum_toNat,
    frameField_toNat]

theorem fieldBytes_length (l : List Half) : (fieldBytes l).length = 2 * l.length := by
  induction l with
  | nil => rfl
  | cons v l ih =>
    simp only [fieldBytes, List.length_cons, ih]
    omega

@[simp] theorem encodeFrame_length (m : Byte) (c : Reading) : (encodeFrame m c).length = 32 := by
  simp [encodeFrame, fieldBytes_length, readingFields]

end Sys2Proof.Machine
end

