-- ==== Sys2Proof/Laws/State.lean ====
section
/-! SUPPORT. Laws/State.lean: what each named operation writes and leaves, one lemma per field per operation. -/

namespace Sys2Proof.Machine

@[simp] theorem State.append_S (s : State) (bs : List Byte) : (s.append bs).S = s.S ++ bs := rfl
@[simp] theorem State.append_cur (s : State) (bs : List Byte) : (s.append bs).cur = s.cur := rfl
@[simp] theorem State.append_R (s : State) (bs : List Byte) : (s.append bs).R = s.R := rfl
@[simp] theorem State.append_published (s : State) (bs : List Byte) : (s.append bs).published = s.published := rfl
@[simp] theorem State.append_result (s : State) (bs : List Byte) : (s.append bs).result = s.result := rfl
@[simp] theorem State.append_cause (s : State) (bs : List Byte) : (s.append bs).cause = s.cause := rfl
@[simp] theorem State.append_F (s : State) (bs : List Byte) : (s.append bs).F = s.F := rfl
@[simp] theorem State.append_sum (s : State) (bs : List Byte) : (s.append bs).sum = s.sum := rfl
@[simp] theorem State.append_C (s : State) (bs : List Byte) : (s.append bs).C = s.C := rfl
@[simp] theorem State.append_phase (s : State) (bs : List Byte) : (s.append bs).phase = s.phase := rfl
@[simp] theorem State.append_reply (s : State) (bs : List Byte) : (s.append bs).reply = s.reply := rfl
@[simp] theorem State.append_readData (s : State) (bs : List Byte) : (s.append bs).readData = s.readData := rfl
@[simp] theorem State.append_schedule (s : State) (bs : List Byte) : (s.append bs).schedule = s.schedule := rfl
@[simp] theorem State.append_turn (s : State) (bs : List Byte) : (s.append bs).turn = s.turn := rfl
@[simp] theorem State.append_inPos (s : State) (bs : List Byte) : (s.append bs).inPos = s.inPos := rfl
@[simp] theorem State.append_cap (s : State) (bs : List Byte) : (s.append bs).cap = s.cap := rfl
@[simp] theorem State.append_draws (s : State) (bs : List Byte) : (s.append bs).draws = s.draws := rfl

@[simp] theorem State.deliver_S (s : State) (m : Nat) : (s.deliver m).S = s.S ++ inSlice s.inPos m := rfl
@[simp] theorem State.deliver_inPos (s : State) (m : Nat) : (s.deliver m).inPos = s.inPos + m := rfl
@[simp] theorem State.deliver_cur (s : State) (m : Nat) : (s.deliver m).cur = s.cur := rfl
@[simp] theorem State.deliver_R (s : State) (m : Nat) : (s.deliver m).R = s.R := rfl
@[simp] theorem State.deliver_published (s : State) (m : Nat) : (s.deliver m).published = s.published := rfl
@[simp] theorem State.deliver_result (s : State) (m : Nat) : (s.deliver m).result = s.result := rfl
@[simp] theorem State.deliver_cause (s : State) (m : Nat) : (s.deliver m).cause = s.cause := rfl
@[simp] theorem State.deliver_F (s : State) (m : Nat) : (s.deliver m).F = s.F := rfl
@[simp] theorem State.deliver_sum (s : State) (m : Nat) : (s.deliver m).sum = s.sum := rfl
@[simp] theorem State.deliver_C (s : State) (m : Nat) : (s.deliver m).C = s.C := rfl
@[simp] theorem State.deliver_phase (s : State) (m : Nat) : (s.deliver m).phase = s.phase := rfl
@[simp] theorem State.deliver_reply (s : State) (m : Nat) : (s.deliver m).reply = s.reply := rfl
@[simp] theorem State.deliver_readData (s : State) (m : Nat) : (s.deliver m).readData = s.readData := rfl
@[simp] theorem State.deliver_schedule (s : State) (m : Nat) : (s.deliver m).schedule = s.schedule := rfl
@[simp] theorem State.deliver_turn (s : State) (m : Nat) : (s.deliver m).turn = s.turn := rfl
@[simp] theorem State.deliver_cap (s : State) (m : Nat) : (s.deliver m).cap = s.cap := rfl
@[simp] theorem State.deliver_draws (s : State) (m : Nat) : (s.deliver m).draws = s.draws := rfl

@[simp] theorem State.consume_S (s : State) (n : Nat) : (s.consume n).S = s.S.drop n := rfl
@[simp] theorem State.consume_cur (s : State) (n : Nat) : (s.consume n).cur = s.cur + n := rfl
@[simp] theorem State.consume_R (s : State) (n : Nat) : (s.consume n).R = s.R := rfl
@[simp] theorem State.consume_published (s : State) (n : Nat) : (s.consume n).published = s.published := rfl
@[simp] theorem State.consume_result (s : State) (n : Nat) : (s.consume n).result = s.result := rfl
@[simp] theorem State.consume_cause (s : State) (n : Nat) : (s.consume n).cause = s.cause := rfl
@[simp] theorem State.consume_F (s : State) (n : Nat) : (s.consume n).F = s.F := rfl
@[simp] theorem State.consume_sum (s : State) (n : Nat) : (s.consume n).sum = s.sum := rfl
@[simp] theorem State.consume_C (s : State) (n : Nat) : (s.consume n).C = s.C := rfl
@[simp] theorem State.consume_phase (s : State) (n : Nat) : (s.consume n).phase = s.phase := rfl
@[simp] theorem State.consume_reply (s : State) (n : Nat) : (s.consume n).reply = s.reply := rfl
@[simp] theorem State.consume_readData (s : State) (n : Nat) : (s.consume n).readData = s.readData := rfl
@[simp] theorem State.consume_schedule (s : State) (n : Nat) : (s.consume n).schedule = s.schedule := rfl
@[simp] theorem State.consume_turn (s : State) (n : Nat) : (s.consume n).turn = s.turn := rfl
@[simp] theorem State.consume_inPos (s : State) (n : Nat) : (s.consume n).inPos = s.inPos := rfl
@[simp] theorem State.consume_cap (s : State) (n : Nat) : (s.consume n).cap = s.cap := rfl
@[simp] theorem State.consume_draws (s : State) (n : Nat) : (s.consume n).draws = s.draws := rfl

@[simp] theorem State.answer_S (s : State) (r : Reply) : (s.answer r).S = s.S := rfl
@[simp] theorem State.answer_cur (s : State) (r : Reply) : (s.answer r).cur = s.cur := rfl
@[simp] theorem State.answer_R (s : State) (r : Reply) : (s.answer r).R = s.R := rfl
@[simp] theorem State.answer_published (s : State) (r : Reply) : (s.answer r).published = s.published := rfl
@[simp] theorem State.answer_result (s : State) (r : Reply) : (s.answer r).result = s.result := rfl
@[simp] theorem State.answer_cause (s : State) (r : Reply) : (s.answer r).cause = s.cause := rfl
@[simp] theorem State.answer_F (s : State) (r : Reply) : (s.answer r).F = s.F := rfl
@[simp] theorem State.answer_sum (s : State) (r : Reply) : (s.answer r).sum = s.sum := rfl
@[simp] theorem State.answer_C (s : State) (r : Reply) : (s.answer r).C = s.C := rfl
@[simp] theorem State.answer_phase (s : State) (r : Reply) : (s.answer r).phase = s.phase := rfl
@[simp] theorem State.answer_reply (s : State) (r : Reply) : (s.answer r).reply = some r := rfl
@[simp] theorem State.answer_readData (s : State) (r : Reply) : (s.answer r).readData = s.readData := rfl
@[simp] theorem State.answer_schedule (s : State) (r : Reply) : (s.answer r).schedule = s.schedule := rfl
@[simp] theorem State.answer_turn (s : State) (r : Reply) : (s.answer r).turn = s.turn := rfl
@[simp] theorem State.answer_inPos (s : State) (r : Reply) : (s.answer r).inPos = s.inPos := rfl
@[simp] theorem State.answer_cap (s : State) (r : Reply) : (s.answer r).cap = s.cap := rfl
@[simp] theorem State.answer_draws (s : State) (r : Reply) : (s.answer r).draws = s.draws := rfl

@[simp] theorem State.setFrame_S (s : State) (f : List Byte) : (s.setFrame f).S = s.S := rfl
@[simp] theorem State.setFrame_cur (s : State) (f : List Byte) : (s.setFrame f).cur = s.cur := rfl
@[simp] theorem State.setFrame_R (s : State) (f : List Byte) : (s.setFrame f).R = s.R := rfl
@[simp] theorem State.setFrame_published (s : State) (f : List Byte) : (s.setFrame f).published = s.published := rfl
@[simp] theorem State.setFrame_result (s : State) (f : List Byte) : (s.setFrame f).result = s.result := rfl
@[simp] theorem State.setFrame_cause (s : State) (f : List Byte) : (s.setFrame f).cause = s.cause := rfl
@[simp] theorem State.setFrame_F (s : State) (f : List Byte) : (s.setFrame f).F = some f := rfl
@[simp] theorem State.setFrame_sum (s : State) (f : List Byte) : (s.setFrame f).sum = s.sum := rfl
@[simp] theorem State.setFrame_C (s : State) (f : List Byte) : (s.setFrame f).C = s.C := rfl
@[simp] theorem State.setFrame_phase (s : State) (f : List Byte) : (s.setFrame f).phase = s.phase := rfl
@[simp] theorem State.setFrame_reply (s : State) (f : List Byte) : (s.setFrame f).reply = s.reply := rfl
@[simp] theorem State.setFrame_readData (s : State) (f : List Byte) : (s.setFrame f).readData = s.readData := rfl
@[simp] theorem State.setFrame_schedule (s : State) (f : List Byte) : (s.setFrame f).schedule = s.schedule := rfl
@[simp] theorem State.setFrame_turn (s : State) (f : List Byte) : (s.setFrame f).turn = s.turn := rfl
@[simp] theorem State.setFrame_inPos (s : State) (f : List Byte) : (s.setFrame f).inPos = s.inPos := rfl
@[simp] theorem State.setFrame_cap (s : State) (f : List Byte) : (s.setFrame f).cap = s.cap := rfl
@[simp] theorem State.setFrame_draws (s : State) (f : List Byte) : (s.setFrame f).draws = s.draws := rfl

@[simp] theorem State.setSum_S (s : State) (v : Half) : (s.setSum v).S = s.S := rfl
@[simp] theorem State.setSum_cur (s : State) (v : Half) : (s.setSum v).cur = s.cur := rfl
@[simp] theorem State.setSum_R (s : State) (v : Half) : (s.setSum v).R = s.R := rfl
@[simp] theorem State.setSum_published (s : State) (v : Half) : (s.setSum v).published = s.published := rfl
@[simp] theorem State.setSum_result (s : State) (v : Half) : (s.setSum v).result = s.result := rfl
@[simp] theorem State.setSum_cause (s : State) (v : Half) : (s.setSum v).cause = s.cause := rfl
@[simp] theorem State.setSum_F (s : State) (v : Half) : (s.setSum v).F = s.F := rfl
@[simp] theorem State.setSum_sum (s : State) (v : Half) : (s.setSum v).sum = some v := rfl
@[simp] theorem State.setSum_C (s : State) (v : Half) : (s.setSum v).C = s.C := rfl
@[simp] theorem State.setSum_phase (s : State) (v : Half) : (s.setSum v).phase = s.phase := rfl
@[simp] theorem State.setSum_reply (s : State) (v : Half) : (s.setSum v).reply = s.reply := rfl
@[simp] theorem State.setSum_readData (s : State) (v : Half) : (s.setSum v).readData = s.readData := rfl
@[simp] theorem State.setSum_schedule (s : State) (v : Half) : (s.setSum v).schedule = s.schedule := rfl
@[simp] theorem State.setSum_turn (s : State) (v : Half) : (s.setSum v).turn = s.turn := rfl
@[simp] theorem State.setSum_inPos (s : State) (v : Half) : (s.setSum v).inPos = s.inPos := rfl
@[simp] theorem State.setSum_cap (s : State) (v : Half) : (s.setSum v).cap = s.cap := rfl
@[simp] theorem State.setSum_draws (s : State) (v : Half) : (s.setSum v).draws = s.draws := rfl

@[simp] theorem State.setCandidate_S (s : State) (c : Reading) : (s.setCandidate c).S = s.S := rfl
@[simp] theorem State.setCandidate_cur (s : State) (c : Reading) : (s.setCandidate c).cur = s.cur := rfl
@[simp] theorem State.setCandidate_R (s : State) (c : Reading) : (s.setCandidate c).R = s.R := rfl
@[simp] theorem State.setCandidate_published (s : State) (c : Reading) : (s.setCandidate c).published = s.published := rfl
@[simp] theorem State.setCandidate_result (s : State) (c : Reading) : (s.setCandidate c).result = s.result := rfl
@[simp] theorem State.setCandidate_cause (s : State) (c : Reading) : (s.setCandidate c).cause = s.cause := rfl
@[simp] theorem State.setCandidate_F (s : State) (c : Reading) : (s.setCandidate c).F = s.F := rfl
@[simp] theorem State.setCandidate_sum (s : State) (c : Reading) : (s.setCandidate c).sum = s.sum := rfl
@[simp] theorem State.setCandidate_C (s : State) (c : Reading) : (s.setCandidate c).C = some c := rfl
@[simp] theorem State.setCandidate_phase (s : State) (c : Reading) : (s.setCandidate c).phase = s.phase := rfl
@[simp] theorem State.setCandidate_reply (s : State) (c : Reading) : (s.setCandidate c).reply = s.reply := rfl
@[simp] theorem State.setCandidate_readData (s : State) (c : Reading) : (s.setCandidate c).readData = s.readData := rfl
@[simp] theorem State.setCandidate_schedule (s : State) (c : Reading) : (s.setCandidate c).schedule = s.schedule := rfl
@[simp] theorem State.setCandidate_turn (s : State) (c : Reading) : (s.setCandidate c).turn = s.turn := rfl
@[simp] theorem State.setCandidate_inPos (s : State) (c : Reading) : (s.setCandidate c).inPos = s.inPos := rfl
@[simp] theorem State.setCandidate_cap (s : State) (c : Reading) : (s.setCandidate c).cap = s.cap := rfl
@[simp] theorem State.setCandidate_draws (s : State) (c : Reading) : (s.setCandidate c).draws = s.draws := rfl

@[simp] theorem State.publish_S (s : State) (c : Reading) : (s.publish c).S = s.S := rfl
@[simp] theorem State.publish_cur (s : State) (c : Reading) : (s.publish c).cur = s.cur := rfl
@[simp] theorem State.publish_R (s : State) (c : Reading) : (s.publish c).R = c := rfl
@[simp] theorem State.publish_published (s : State) (c : Reading) : (s.publish c).published = true := rfl
@[simp] theorem State.publish_result (s : State) (c : Reading) : (s.publish c).result = s.result := rfl
@[simp] theorem State.publish_cause (s : State) (c : Reading) : (s.publish c).cause = s.cause := rfl
@[simp] theorem State.publish_F (s : State) (c : Reading) : (s.publish c).F = s.F := rfl
@[simp] theorem State.publish_sum (s : State) (c : Reading) : (s.publish c).sum = s.sum := rfl
@[simp] theorem State.publish_C (s : State) (c : Reading) : (s.publish c).C = s.C := rfl
@[simp] theorem State.publish_phase (s : State) (c : Reading) : (s.publish c).phase = s.phase := rfl
@[simp] theorem State.publish_reply (s : State) (c : Reading) : (s.publish c).reply = s.reply := rfl
@[simp] theorem State.publish_readData (s : State) (c : Reading) : (s.publish c).readData = s.readData := rfl
@[simp] theorem State.publish_schedule (s : State) (c : Reading) : (s.publish c).schedule = s.schedule := rfl
@[simp] theorem State.publish_turn (s : State) (c : Reading) : (s.publish c).turn = s.turn := rfl
@[simp] theorem State.publish_inPos (s : State) (c : Reading) : (s.publish c).inPos = s.inPos := rfl
@[simp] theorem State.publish_cap (s : State) (c : Reading) : (s.publish c).cap = s.cap := rfl
@[simp] theorem State.publish_draws (s : State) (c : Reading) : (s.publish c).draws = s.draws := rfl

@[simp] theorem State.discard_S (s : State) : (s.discard).S = s.S := rfl
@[simp] theorem State.discard_cur (s : State) : (s.discard).cur = s.cur := rfl
@[simp] theorem State.discard_R (s : State) : (s.discard).R = s.R := rfl
@[simp] theorem State.discard_published (s : State) : (s.discard).published = s.published := rfl
@[simp] theorem State.discard_result (s : State) : (s.discard).result = s.result := rfl
@[simp] theorem State.discard_cause (s : State) : (s.discard).cause = s.cause := rfl
@[simp] theorem State.discard_F (s : State) : (s.discard).F = none := rfl
@[simp] theorem State.discard_sum (s : State) : (s.discard).sum = none := rfl
@[simp] theorem State.discard_C (s : State) : (s.discard).C = none := rfl
@[simp] theorem State.discard_phase (s : State) : (s.discard).phase = s.phase := rfl
@[simp] theorem State.discard_reply (s : State) : (s.discard).reply = s.reply := rfl
@[simp] theorem State.discard_readData (s : State) : (s.discard).readData = s.readData := rfl
@[simp] theorem State.discard_schedule (s : State) : (s.discard).schedule = s.schedule := rfl
@[simp] theorem State.discard_turn (s : State) : (s.discard).turn = s.turn := rfl
@[simp] theorem State.discard_inPos (s : State) : (s.discard).inPos = s.inPos := rfl
@[simp] theorem State.discard_cap (s : State) : (s.discard).cap = s.cap := rfl
@[simp] theorem State.discard_draws (s : State) : (s.discard).draws = s.draws := rfl

@[simp] theorem State.endTick_S (s : State) (c : Cause) : (s.endTick c).S = s.S := rfl
@[simp] theorem State.endTick_cur (s : State) (c : Cause) : (s.endTick c).cur = s.cur := rfl
@[simp] theorem State.endTick_R (s : State) (c : Cause) : (s.endTick c).R = s.R := rfl
@[simp] theorem State.endTick_published (s : State) (c : Cause) : (s.endTick c).published = s.published := rfl
@[simp] theorem State.endTick_result (s : State) (c : Cause) : (s.endTick c).result = c.result := rfl
@[simp] theorem State.endTick_cause (s : State) (c : Cause) : (s.endTick c).cause = some c := rfl
@[simp] theorem State.endTick_F (s : State) (c : Cause) : (s.endTick c).F = s.F := rfl
@[simp] theorem State.endTick_sum (s : State) (c : Cause) : (s.endTick c).sum = s.sum := rfl
@[simp] theorem State.endTick_C (s : State) (c : Cause) : (s.endTick c).C = s.C := rfl
@[simp] theorem State.endTick_phase (s : State) (c : Cause) : (s.endTick c).phase = s.phase := rfl
@[simp] theorem State.endTick_reply (s : State) (c : Cause) : (s.endTick c).reply = s.reply := rfl
@[simp] theorem State.endTick_readData (s : State) (c : Cause) : (s.endTick c).readData = s.readData := rfl
@[simp] theorem State.endTick_schedule (s : State) (c : Cause) : (s.endTick c).schedule = s.schedule := rfl
@[simp] theorem State.endTick_turn (s : State) (c : Cause) : (s.endTick c).turn = s.turn := rfl
@[simp] theorem State.endTick_inPos (s : State) (c : Cause) : (s.endTick c).inPos = s.inPos := rfl
@[simp] theorem State.endTick_cap (s : State) (c : Cause) : (s.endTick c).cap = s.cap := rfl
@[simp] theorem State.endTick_draws (s : State) (c : Cause) : (s.endTick c).draws = s.draws := rfl

@[simp] theorem State.strRead_S (s : State) (n : Nat) : (s.strRead n).S = s.S.drop n := rfl
@[simp] theorem State.strRead_cur (s : State) (n : Nat) : (s.strRead n).cur = s.cur + n := rfl
@[simp] theorem State.strRead_R (s : State) (n : Nat) : (s.strRead n).R = s.R := rfl
@[simp] theorem State.strRead_published (s : State) (n : Nat) : (s.strRead n).published = s.published := rfl
@[simp] theorem State.strRead_result (s : State) (n : Nat) : (s.strRead n).result = s.result := rfl
@[simp] theorem State.strRead_cause (s : State) (n : Nat) : (s.strRead n).cause = s.cause := rfl
@[simp] theorem State.strRead_F (s : State) (n : Nat) : (s.strRead n).F = some (s.S.take n) := rfl
@[simp] theorem State.strRead_sum (s : State) (n : Nat) : (s.strRead n).sum = s.sum := rfl
@[simp] theorem State.strRead_C (s : State) (n : Nat) : (s.strRead n).C = s.C := rfl
@[simp] theorem State.strRead_phase (s : State) (n : Nat) : (s.strRead n).phase = s.phase := rfl
@[simp] theorem State.strRead_reply (s : State) (n : Nat) : (s.strRead n).reply = s.reply := rfl
@[simp] theorem State.strRead_readData (s : State) (n : Nat) : (s.strRead n).readData = s.readData := rfl
@[simp] theorem State.strRead_schedule (s : State) (n : Nat) : (s.strRead n).schedule = s.schedule := rfl
@[simp] theorem State.strRead_turn (s : State) (n : Nat) : (s.strRead n).turn = s.turn := rfl
@[simp] theorem State.strRead_inPos (s : State) (n : Nat) : (s.strRead n).inPos = s.inPos := rfl
@[simp] theorem State.strRead_cap (s : State) (n : Nat) : (s.strRead n).cap = s.cap := rfl
@[simp] theorem State.strRead_draws (s : State) (n : Nat) : (s.strRead n).draws = s.draws := rfl
@[simp] theorem State.arr_sub_cur (s : State) : s.arr - s.cur = s.S.length := by simp [State.arr]

@[simp] theorem State.append_nil (s : State) : s.append [] = s := by simp [State.append]

theorem State.append_append (s : State) (as bs : List Byte) :
    (s.append as).append bs = s.append (as ++ bs) := by simp [State.append]

end Sys2Proof.Machine
end

