-- ==== Sys2Proof/Laws/Ops.lean ====
section
/-! SUPPORT. Laws/Ops.lean: what each shared operation can answer, and the selection of a tick's operation. -/

namespace Sys2Proof.Machine

/-- Everything `runSelected` can answer with a next state. -/
theorem State.runSelected_eq_next {s e t : State} {c : Cause} :
    s.runSelected c e = .next t ↔ s.phase = none ∧ selectOp s.S = c ∧ e = t := by
  unfold State.runSelected
  split
  · simp_all
  · split <;> simp_all

theorem State.runSelected_of_selected {s e : State} {c : Cause} (hp : s.phase = none)
    (hc : selectOp s.S = c) : s.runSelected c e = .next e :=
  State.runSelected_eq_next.2 ⟨hp, hc, rfl⟩

theorem State.runSelected_of_other {s e : State} {c : Cause} (hp : s.phase = none)
    (hc : selectOp s.S ≠ c) : s.runSelected c e = .refused (.notSelected (selectOp s.S)) := by
  unfold State.runSelected
  rw [hp]
  simp [hc]

/-- The selection by the four bits of the key (30_encoding.md R54). -/
theorem selectOp_eq_bits (s : List Byte) :
    selectOp s =
      if keyNz s = false then .idle
      else if keyHs s = false then .resync
      else if keyGe32 s = false then .wait
      else if keyCk s = false then .reject
      else .accept := by
  unfold selectOp streamKey
  cases keyNz s <;> cases keyHs s <;> cases keyGe32 s <;> cases keyCk s <;> rfl

/-- The frame the buffer holds is the one of 32 bytes in it. -/
theorem State.frame_eq_some {s : State} {f : List Byte} :
    s.frame = some f ↔ s.F = some f ∧ f.length = 32 := by
  unfold State.frame
  split
  · next g hg =>
    by_cases h : g.length = 32 <;> simp [Config.frameLen, h, hg] <;> rintro rfl <;> simp_all
  · simp_all

/-! One lemma per source operation and internal step: exactly when, and with what, it answers a next state. -/

theorem execSAvail_eq (s : State) : execSAvail s = .next (s.answer (.count s.S.length)) := by
  rw [execSAvail, State.arr_sub_cur]

theorem execSPeek_eq_next {s t : State} :
    execSPeek s = .next t ↔ ∃ b rest, s.S = b :: rest ∧ s.answer (.byte b) = t := by
  unfold execSPeek
  split <;> simp_all

theorem execSPop1_eq_next {s t : State} :
    execSPop1 s = .next t ↔ s.S ≠ [] ∧ s.consume 1 = t := by
  unfold execSPop1
  split <;> simp_all

theorem execSReadn_eq_next {n : Nat} {s t : State} :
    execSReadn n s = .next t ↔
      n ≤ s.S.length ∧ (s.strRead n).answer (.bytes (s.S.take n)) = t := by
  unfold execSReadn
  split <;> simp_all

theorem execCapture32_eq_next {s t : State} :
    execCapture32 s = .next t ↔ 32 ≤ s.S.length ∧ s.strRead 32 = t := by
  unfold execCapture32
  split <;> simp_all [Config.frameLen]

theorem execSum30_eq_next {s t : State} :
    execSum30 s = .next t ↔
      ∃ f, (s.F = some f ∧ f.length = 32) ∧ s.setSum (frameSum f) = t := by
  unfold execSum30
  simp only [← State.frame_eq_some]
  split <;> simp_all

theorem execUnpack15_eq_next {s t : State} :
    execUnpack15 s = .next t ↔
      ∃ f, (s.F = some f ∧ f.length = 32) ∧ s.setCandidate (unpackFrame f) = t := by
  unfold execUnpack15
  simp only [← State.frame_eq_some]
  split <;> simp_all

theorem execCmp16_eq_next {s t : State} :
    execCmp16 s = .next t ↔
      ∃ v c, s.sum = some v ∧ s.C = some c ∧ s.answer (.bit (sameSum v c.checksum)) = t := by
  unfold execCmp16
  split <;> simp_all [readingGet, readingFields, Config.ckIdx]

theorem execPublish_eq_next {s t : State} :
    execPublish s = .next t ↔ ∃ c, s.C = some c ∧ s.publish c = t := by
  unfold execPublish
  split <;> simp_all

theorem withinCap_mono {cap : Option Nat} {m n : Nat} (h : withinCap cap n = true) (hmn : m ≤ n) :
    withinCap cap m = true := by
  cases cap with
  | none => rfl
  | some c =>
    simp only [withinCap, decide_eq_true_eq] at h ⊢
    omega

theorem withinCap_atMost (b : Option Nat) (n : Nat) : withinCap b (atMost b n) = true := by
  cases b <;> simp [withinCap, atMost]

theorem atMost_le (b : Option Nat) (n : Nat) : atMost b n ≤ n := by
  cases b <;> simp [atMost]

/-- An arrival keeps a count that is within a bound within it. -/
theorem withinCap_add_atMost {b : Option Nat} {k : Nat} (h : withinCap b k = true) (n : Nat) :
    withinCap b (k + atMost (b.map (· - k)) n) = true := by
  cases b with
  | none => rfl
  | some c =>
    simp only [withinCap, decide_eq_true_eq] at h ⊢
    show k + min n (c - k) ≤ c
    omega

theorem State.canArrive_le (s : State) (n : Nat) : s.canArrive n ≤ n :=
  (atMost_le _ _).trans (atMost_le _ _)

/-- An arrival stays within `CAP` and within `len(In)`. -/
theorem State.canArrive_within_cap {s : State} (h : withinCap s.cap s.S.length = true) (n : Nat) :
    withinCap s.cap (s.S.length + s.canArrive n) = true :=
  withinCap_add_atMost h _

theorem State.canArrive_within_lenIn {s : State} (h : withinCap Config.lenIn s.inPos = true)
    (n : Nat) : withinCap Config.lenIn (s.inPos + s.canArrive n) = true :=
  withinCap_mono (withinCap_add_atMost h n) (Nat.add_le_add_left (atMost_le _ _) _)

@[simp] theorem inSlice_length (p n : Nat) : (inSlice p n).length = n := by simp [inSlice]

/-- `In[p .. p+m+n-1]` is its first `m` bytes and then the rest. -/
theorem inSlice_add (p m n : Nat) : inSlice p (m + n) = inSlice p m ++ inSlice (p + m) n := by
  simp [inSlice, List.range_add, Function.comp_def, Nat.add_assoc]

theorem inSlice_drop (p n k : Nat) : (inSlice p n).drop k = inSlice (p + k) (n - k) := by
  rcases Nat.le_total n k with h | h
  · rw [Nat.sub_eq_zero_of_le h, List.drop_of_length_le (by simpa using h)]; rfl
  · obtain ⟨d, rfl⟩ := Nat.exists_eq_add_of_le h
    rw [inSlice_add, List.drop_left' (inSlice_length p k), Nat.add_sub_cancel_left]

end Sys2Proof.Machine
end

