-- ==== Sys2Proof/Laws/PerInstr.lean ====
section
/-! SUPPORT. Laws/PerInstr.lean: what the encoding says of every row of the operation table, one lemma per constructor of Instr. -/

namespace Sys2Proof

/-- A row that has an encoding is read back from it by the decoder; a row that has none (30_encoding.md R55: the entry, the source
operations, the internal steps) is never what the bytes of a stream select. -/
def Laws.TableEncoding.Statement (i : Instr) : Prop :=
  match encode i with
  | some k => decodeTableWord 8 k.toNat = some i
  | none => ∀ s : List Byte, decode s ≠ i

/-- The decoder reads a tick operation from every stream, so never a row of another kind. -/
theorem Laws.decode_ne_of_not_tick {i : Instr} (h : ∀ c, tickInstr c ≠ i) (s : List Byte) :
    decode s ≠ i := h (selectOp s)

/-- The statement for a row with an encoding. -/
theorem Laws.statement_of_key {i : Instr} {k : BitVec 4} (hk : encode i = some k)
    (hd : decodeTableWord 8 k.toNat = some i) : Laws.TableEncoding.Statement i := by
  unfold Laws.TableEncoding.Statement
  rw [hk]
  exact hd

theorem Laws.TableEncoding.tick : Laws.TableEncoding.Statement .tick :=
  Laws.decode_ne_of_not_tick fun c => by cases c <;> decide

theorem Laws.TableEncoding.tIdle : Laws.TableEncoding.Statement .tIdle :=
  Laws.statement_of_key rfl (by decide)

theorem Laws.TableEncoding.tResync : Laws.TableEncoding.Statement .tResync :=
  Laws.statement_of_key rfl (by decide)

theorem Laws.TableEncoding.tWait : Laws.TableEncoding.Statement .tWait :=
  Laws.statement_of_key rfl (by decide)

theorem Laws.TableEncoding.tReject : Laws.TableEncoding.Statement .tReject :=
  Laws.statement_of_key rfl (by decide)

theorem Laws.TableEncoding.tAccept : Laws.TableEncoding.Statement .tAccept :=
  Laws.statement_of_key rfl (by decide)

theorem Laws.TableEncoding.sAvail : Laws.TableEncoding.Statement .sAvail :=
  Laws.decode_ne_of_not_tick fun c => by cases c <;> decide

theorem Laws.TableEncoding.sPeek : Laws.TableEncoding.Statement .sPeek :=
  Laws.decode_ne_of_not_tick fun c => by cases c <;> decide

theorem Laws.TableEncoding.sPop1 : Laws.TableEncoding.Statement .sPop1 :=
  Laws.decode_ne_of_not_tick fun c => by cases c <;> decide

theorem Laws.TableEncoding.sReadn (n : Nat) : Laws.TableEncoding.Statement (.sReadn n) :=
  Laws.decode_ne_of_not_tick fun c => by cases c <;> simp [tickInstr]

theorem Laws.TableEncoding.capture32 : Laws.TableEncoding.Statement .capture32 :=
  Laws.decode_ne_of_not_tick fun c => by cases c <;> decide

theorem Laws.TableEncoding.sum30 : Laws.TableEncoding.Statement .sum30 :=
  Laws.decode_ne_of_not_tick fun c => by cases c <;> decide

theorem Laws.TableEncoding.be16 (hi lo : Byte) : Laws.TableEncoding.Statement (.be16 hi lo) :=
  Laws.decode_ne_of_not_tick fun c => by cases c <;> simp [tickInstr]

theorem Laws.TableEncoding.unpack15 : Laws.TableEncoding.Statement .unpack15 :=
  Laws.decode_ne_of_not_tick fun c => by cases c <;> decide

theorem Laws.TableEncoding.cmp16 : Laws.TableEncoding.Statement .cmp16 :=
  Laws.decode_ne_of_not_tick fun c => by cases c <;> decide

theorem Laws.TableEncoding.publish : Laws.TableEncoding.Statement .publish :=
  Laws.decode_ne_of_not_tick fun c => by cases c <;> decide

end Sys2Proof
end

