-- ==== Sys2Proof/Laws/Schedule.lean ====
section
/-! SUPPORT. Laws/Schedule.lean: what each move of an agent, and one step of the machine, can do. -/

namespace Sys2Proof.Machine

@[simp] theorem State.goTo_S (s : State) (p : Phase) : (s.goTo p).S = s.S := rfl
@[simp] theorem State.goTo_cur (s : State) (p : Phase) : (s.goTo p).cur = s.cur := rfl
@[simp] theorem State.goTo_R (s : State) (p : Phase) : (s.goTo p).R = s.R := rfl
@[simp] theorem State.goTo_published (s : State) (p : Phase) : (s.goTo p).published = s.published := rfl
@[simp] theorem State.goTo_result (s : State) (p : Phase) : (s.goTo p).result = s.result := rfl
@[simp] theorem State.goTo_cause (s : State) (p : Phase) : (s.goTo p).cause = s.cause := rfl
@[simp] theorem State.goTo_F (s : State) (p : Phase) : (s.goTo p).F = s.F := rfl
@[simp] theorem State.goTo_sum (s : State) (p : Phase) : (s.goTo p).sum = s.sum := rfl
@[simp] theorem State.goTo_C (s : State) (p : Phase) : (s.goTo p).C = s.C := rfl
@[simp] theorem State.goTo_phase (s : State) (p : Phase) : (s.goTo p).phase = some p := rfl
@[simp] theorem State.goTo_reply (s : State) (p : Phase) : (s.goTo p).reply = s.reply := rfl
@[simp] theorem State.goTo_readData (s : State) (p : Phase) : (s.goTo p).readData = s.readData := rfl
@[simp] theorem State.goTo_schedule (s : State) (p : Phase) : (s.goTo p).schedule = s.schedule := rfl
@[simp] theorem State.goTo_turn (s : State) (p : Phase) : (s.goTo p).turn = s.turn := rfl
@[simp] theorem State.goTo_inPos (s : State) (p : Phase) : (s.goTo p).inPos = s.inPos := rfl
@[simp] theorem State.goTo_cap (s : State) (p : Phase) : (s.goTo p).cap = s.cap := rfl
@[simp] theorem State.goTo_draws (s : State) (p : Phase) : (s.goTo p).draws = s.draws := rfl

@[simp] theorem State.completeTick_S (s : State) (c : Cause) : (s.completeTick c).S = s.S := rfl
@[simp] theorem State.completeTick_cur (s : State) (c : Cause) : (s.completeTick c).cur = s.cur := rfl
@[simp] theorem State.completeTick_R (s : State) (c : Cause) : (s.completeTick c).R = s.R := rfl
@[simp] theorem State.completeTick_published (s : State) (c : Cause) : (s.completeTick c).published = s.published := rfl
@[simp] theorem State.completeTick_result (s : State) (c : Cause) : (s.completeTick c).result = c.result := rfl
@[simp] theorem State.completeTick_cause (s : State) (c : Cause) : (s.completeTick c).cause = some c := rfl
@[simp] theorem State.completeTick_F (s : State) (c : Cause) : (s.completeTick c).F = none := rfl
@[simp] theorem State.completeTick_sum (s : State) (c : Cause) : (s.completeTick c).sum = none := rfl
@[simp] theorem State.completeTick_C (s : State) (c : Cause) : (s.completeTick c).C = none := rfl
@[simp] theorem State.completeTick_phase (s : State) (c : Cause) : (s.completeTick c).phase = none := rfl
@[simp] theorem State.completeTick_reply (s : State) (c : Cause) : (s.completeTick c).reply = none := rfl
@[simp] theorem State.completeTick_readData (s : State) (c : Cause) : (s.completeTick c).readData = s.readData := rfl
@[simp] theorem State.completeTick_schedule (s : State) (c : Cause) : (s.completeTick c).schedule = s.schedule := rfl
@[simp] theorem State.completeTick_turn (s : State) (c : Cause) : (s.completeTick c).turn = s.turn := rfl
@[simp] theorem State.completeTick_inPos (s : State) (c : Cause) : (s.completeTick c).inPos = s.inPos := rfl
@[simp] theorem State.completeTick_cap (s : State) (c : Cause) : (s.completeTick c).cap = s.cap := rfl
@[simp] theorem State.completeTick_draws (s : State) (c : Cause) : (s.completeTick c).draws = s.draws := rfl

@[simp] theorem State.takeMove_S (s : State) : s.takeMove.S = s.S := by
  unfold State.takeMove; split <;> rfl
@[simp] theorem State.takeMove_cur (s : State) : s.takeMove.cur = s.cur := by
  unfold State.takeMove; split <;> rfl
@[simp] theorem State.takeMove_R (s : State) : s.takeMove.R = s.R := by
  unfold State.takeMove; split <;> rfl
@[simp] theorem State.takeMove_published (s : State) : s.takeMove.published = s.published := by
  unfold State.takeMove; split <;> rfl
@[simp] theorem State.takeMove_result (s : State) : s.takeMove.result = s.result := by
  unfold State.takeMove; split <;> rfl
@[simp] theorem State.takeMove_cause (s : State) : s.takeMove.cause = s.cause := by
  unfold State.takeMove; split <;> rfl
@[simp] theorem State.takeMove_F (s : State) : s.takeMove.F = s.F := by
  unfold State.takeMove; split <;> rfl
@[simp] theorem State.takeMove_sum (s : State) : s.takeMove.sum = s.sum := by
  unfold State.takeMove; split <;> rfl
@[simp] theorem State.takeMove_C (s : State) : s.takeMove.C = s.C := by
  unfold State.takeMove; split <;> rfl
@[simp] theorem State.takeMove_phase (s : State) : s.takeMove.phase = s.phase := by
  unfold State.takeMove; split <;> rfl
@[simp] theorem State.takeMove_reply (s : State) : s.takeMove.reply = s.reply := by
  unfold State.takeMove; split <;> rfl
@[simp] theorem State.takeMove_readData (s : State) : s.takeMove.readData = s.readData := by
  unfold State.takeMove; split <;> rfl
@[simp] theorem State.takeMove_cap (s : State) : s.takeMove.cap = s.cap := by
  unfold State.takeMove; split <;> rfl
@[simp] theorem State.takeMove_draws (s : State) : s.takeMove.draws = s.draws := by
  unfold State.takeMove; split <;> rfl
@[simp] theorem State.takeMove_inPos (s : State) : s.takeMove.inPos = s.inPos := by
  unfold State.takeMove; split <;> rfl

/-- The next move with a scenario statement left. -/
theorem State.nextMove_cons {s : State} {m : Stmt} {rest : List Stmt} (h : s.schedule = m :: rest) :
    s.nextMove = m ∧ s.takeMove = { s with schedule := rest } := by
  simp [State.nextMove, State.takeMove, h]

/-- The next move inside a tick with no scenario statement left. -/
theorem State.nextMove_phase {s : State} (h : s.schedule = []) (hp : s.phase ≠ none) :
    s.nextMove = .fsd ∧ s.takeMove = s := by
  unfold State.nextMove State.takeMove
  split <;> simp_all

/-- The next move between ticks with no scenario statement left. -/
theorem State.nextMove_none {s : State} (h : s.schedule = []) (hp : s.phase = none) :
    s.nextMove = (Config.schedule s.turn).stmt ∧ s.takeMove = { s with turn := s.turn + 1 } := by
  simp [State.nextMove, State.takeMove, h, hp]

/-- A reset comes only from a scenario. -/
theorem State.nextMove_eq_reset {s : State} :
    s.nextMove = .reset ↔ ∃ rest, s.schedule = .reset :: rest := by
  unfold State.nextMove
  split <;> simp_all
  cases Config.schedule s.turn <;> simp [Move.stmt]

theorem arriveBytes_eq_next {n : Nat} {s t : State} :
    arriveBytes n s = .next t ↔ s.deliver (s.canArrive n) = t := by
  simp [arriveBytes]

theorem pushBytes_eq_next {bs : List Byte} {s t : State} :
    pushBytes bs s = .next t ↔
      withinCap s.cap (s.S.length + bs.length) = true ∧ s.append bs = t := by
  unfold pushBytes
  split <;> simp_all

theorem startTick_eq_next {s t : State} :
    startTick s = .next t ↔ s.phase = none ∧ s.goTo .count1 = t := by
  unfold startTick
  split <;> simp_all

theorem readField_eq_next {i : Fin 15} {s t : State} :
    readField i s = .next t ↔
      s.phase = none ∧ { s with readData := some (readingGet s.R i) } = t := by
  unfold readField
  split <;> simp_all

theorem resetStep_eq_next {s t : State} :
    resetStep s = .next t ↔ s.phase = none ∧ s.resetBetweenTicks = t := by
  unfold resetStep
  split <;> simp_all

theorem execTick_eq_next {s t : State} :
    execTick s = .next t ↔ s.phase = none ∧ tickAlgorithm s = t := by
  unfold execTick
  split <;> simp_all

/-- Between ticks the FSD does nothing; inside one it performs the operation of its phase and goes on. -/
theorem microStep_eq_next {s t : State} :
    microStep s = .next t ↔
      (s.phase = none ∧ s = t) ∨
        ∃ p u, s.phase = some p ∧ exec (phaseInstr p) s = .next u ∧ u.advance p = t := by
  unfold microStep
  split
  · next h => simp [h]
  · next p h =>
    split <;> simp_all

/-- Everything one step can do: the next move, made in the state with that move taken off its schedule. -/
theorem step_eq (s : State) : step s = perform s.nextMove s.takeMove := rfl

end Sys2Proof.Machine
end

