-- ==== Sys2Proof/Tests/Slice0.lean ====
section
/-! SUPPORT. Tests/Slice0.lean: tests against the vectors of 95_test_vectors.md and words written out from 30_encoding.md, and for
each statement that has hypotheses a state and operands that meet them. -/

namespace Sys2Proof.Tests

open Sys2Proof.Machine

/-! ## Small states -/

/-- A reading of zeros. -/
def zeros : Reading := flatReading 0#16 0#16

/-- A machine between ticks with these bytes unread, nothing published and nothing scheduled. -/
def demo (S : List Byte) : State :=
  { S := S, cur := 0, R := zeros, published := false, result := .noData, cause := none,
    F := none, sum := none, C := none, phase := none, reply := none, readData := none,
    schedule := [], turn := 0, inPos := 0, cap := none, draws := 1 }

/-- The same machine inside a tick, at this step of it. -/
def inTick (p : Phase) (S : List Byte) : State := { demo S with phase := some p }

/-- The same machine with this move scheduled. -/
def planned (m : Stmt) (S : List Byte) : State := { demo S with schedule := [m] }

/-- Frame A of 95_test_vectors.md section 0. -/
def frameA : List Byte :=
  [0x42, 0x4D, 0x00, 0x1C, 0x00, 0x05, 0x00, 0x08, 0x00, 0x09, 0x00, 0x05, 0x00, 0x08, 0x00, 0x09,
   0x04, 0xB0, 0x01, 0x5C, 0x00, 0x3A, 0x00, 0x06, 0x00, 0x02, 0x00, 0x01, 0x97, 0x00, 0x02, 0xC2]

/-- Frame A with the last bit of its checksum flipped (95_test_vectors.md J2). -/
def frameJ2 : List Byte := frameA.set 31 0xC3

/-- Frame Mx of 95_test_vectors.md section 0: every data byte 0xFF. -/
def frameMx : List Byte := 0x42 :: List.replicate 29 0xFF ++ [0x1D, 0x25]

/-- What a meaning leaves, where it answers a next state. -/
def after (a : Answer) : Option State :=
  match a with
  | .next t => some t
  | .fault _ => none
  | .refused _ => none

/-- Why a meaning is refused, where it is. -/
def why (a : Answer) : Option Refusal :=
  match a with
  | .next _ => none
  | .fault _ => none
  | .refused r => some r

/-! ## WellFormed -/

theorem test_wellFormed_read32 : (Instr.sReadn 32).wellFormed = true := by decide

/-- The FSD only ever passes 32 (20_memory.md R38). -/
theorem test_illFormed_read31 : (Instr.sReadn 31).wellFormed = false := by decide

/-! ## Constants: the relations of 00_scope.md R4 -/

theorem test_constants :
    Config.frameLen = Config.markLen + 2 * Config.nFields ∧
      Config.sumLen = Config.frameLen - 2 ∧ Config.ckIdx.val + 1 = Config.nFields := by decide

/-! ## Decode: keys and frames written out from 30_encoding.md R52 and R54 -/

/-- T.IDLE, `K = x0xx` with its don't-care bits all 1. -/
theorem test_decode_idle : decodeTableWord 8 0b1011 = some .tIdle := by decide

/-- T.RESYNC, `K = x10x`: misaligned although 32 bytes are there (95_test_vectors.md Y8). -/
theorem test_decode_resync : decodeTableWord 8 0b1100 = some .tResync := by decide

/-- T.WAIT, `K = 011x`. -/
theorem test_decode_wait : decodeTableWord 8 0b0111 = some .tWait := by decide

/-- T.REJECT, `K = 1110`. -/
theorem test_decode_reject : decodeTableWord 8 0b1110 = some .tReject := by decide

/-- T.ACCEPT, `K = 1111`. -/
theorem test_decode_accept : decodeTableWord 8 0b1111 = some .tAccept := by decide

/-- Frame A as one 256-bit number, offset 0 most significant (30_encoding.md R52). -/
theorem test_decode_frame_word :
    decodeTableWord 256 0x424D001C00050008000900050008000904B0015C003A000600020001970002C2 =
      some .tAccept := by decide

/-- A number that is neither a key nor a frame is no word of the table. -/
theorem test_decode_rejects : decodeTableWord 8 0x42 = none := by decide

/-- The bytes of frame A (95_test_vectors.md J1) and of J2. -/
theorem test_decode_frameA : decode frameA = .tAccept := by decide

theorem test_decode_frameJ2 : decode frameJ2 = .tReject := by decide

/-- The key of 33 bytes with a misaligned head (95_test_vectors.md Y8). -/
theorem test_key_Y8 : streamKey (0x4D :: frameA) = 0b1100#4 := by decide

/-- The key of the first 31 bytes of A (95_test_vectors.md Y7). -/
theorem test_key_Y7 : streamKey (frameA.take 31) = 0b0110#4 := by decide

/-- The encoder writes frame A from its marker and fields (95_test_vectors.md section 0). -/
theorem test_encode_frameA : encodeFrame 0x4D (unpackFrame frameA) = frameA := by decide

/-! ## Placed words run as the first step after reset -/

theorem test_placed_idle :
    (after (step (State.reset.withFetchWord 8 0b0000))).bind (·.cause) = some .idle := by decide

theorem test_placed_resync :
    (after (step (State.reset.withFetchWord 8 0b0100))).bind (·.cause) = some .resync := by decide

theorem test_placed_wait :
    (after (step (State.reset.withFetchWord 8 0b0110))).bind (·.cause) = some .wait := by decide

theorem test_placed_reject :
    (after (step (State.reset.withFetchWord 8 0b1110))).bind (·.cause) = some .reject := by decide

theorem test_placed_accept :
    (after (step (State.reset.withFetchWord 8 0b1111))).bind (·.cause) = some .accept := by decide

/-! ## The tick (95_test_vectors.md sections 2.2, 2.3) -/

/-- J1: frame A is accepted; every field. -/
theorem test_tick_J1 :
    ((after (exec .tick (demo frameA))).map fun t => readingFields t.R) =
      some [28, 5, 8, 9, 5, 8, 9, 1200, 348, 58, 6, 2, 1, 38656, 706] := by decide

/-- J3: a little-endian checksum is rejected, and the reading kept. -/
theorem test_tick_J3 :
    ((after (exec .tick (demo ((frameA.set 30 0xC2).set 31 0x02)))).map
      fun t => (t.cause, t.result, t.S, t.R)) =
      some (some .reject, .noData, [], zeros) := by decide

/-- R82's example. -/
theorem test_tIdle_empty :
    ((after (exec .tIdle (demo []))).map fun t => (t.cause, t.cur)) = some (some .idle, 0) := by
  decide

/-- Y9: short and misaligned is RESYNC, not WAIT; one byte goes. -/
theorem test_tResync_Y9 :
    ((after (exec .tResync (demo [0x01, 0x02, 0x03, 0x04, 0x05]))).map
      fun t => (t.cause, t.S, t.cur)) =
      some (some .resync, [0x02, 0x03, 0x04, 0x05], 1) := by decide

/-- Y8: misaligned although at least 32 bytes are available. -/
theorem test_tResync_Y8 :
    ((after (exec .tResync (demo (0x4D :: frameA)))).map fun t => (t.result, t.S)) =
      some (.noData, frameA) := by decide

/-- Y7: 31 bytes wait, the sentinel stays. -/
theorem test_tWait_Y7 :
    ((after (exec .tWait (demo (frameA.take 31)))).map fun t => (t.cause, t.S, t.cur)) =
      some (some .wait, frameA.take 31, 0) := by decide

/-- Y12: 32 bytes do not wait. -/
theorem test_tWait_Y12 : why (exec .tWait (demo frameA)) = some (.notSelected .accept) := by
  decide

/-- J2 with a byte behind it: exactly 32 bytes go. -/
theorem test_tReject_J2 :
    ((after (exec .tReject (demo (frameJ2 ++ [0x99])))).map fun t => (t.S, t.cur, t.published)) =
      some ([0x99], 32, false) := by decide

/-- J11: every data byte 0xFF; no wrap and no sign extension. -/
theorem test_tAccept_J11 :
    ((after (exec .tAccept (demo frameMx))).map fun t => (t.R.frame_len, t.R.checksum, t.result)) =
      some (65535, 7461, .success) := by decide

/-- J13: the 33rd byte becomes the new head. -/
theorem test_tAccept_J13 :
    ((after (exec .tAccept (demo (frameA ++ [0x99])))).map fun t => (t.S, t.published)) =
      some ([0x99], true) := by decide

/-! ## The source operations (95_test_vectors.md section 2.1) -/

/-- I2. -/
theorem test_sAvail_I2 :
    ((after (exec .sAvail (demo [0x42, 0x4D, 0x00]))).map (·.reply)) =
      some (some (.count 3)) := by decide

/-- I3. -/
theorem test_sPeek_I3 :
    ((after (exec .sPeek (demo [0x01, 0x42, 0x4D]))).map fun t => (t.reply, t.S)) =
      some (some (.byte 0x01), [0x01, 0x42, 0x4D]) := by decide

/-- I9. -/
theorem test_sPeek_I9 : why (exec .sPeek (demo [])) = some .emptyStream := by decide

/-- I5. -/
theorem test_sPop1_I5 :
    ((after (exec .sPop1 (demo [0x01, 0x42, 0x4D]))).map (·.S)) = some [0x42, 0x4D] := by decide

/-- I7. -/
theorem test_sReadn_I7 :
    ((after (exec (.sReadn 32) (demo (frameA ++ [0x99])))).map fun t => (t.reply, t.S)) =
      some (some (.bytes frameA), [0x99]) := by decide

/-- I10. -/
theorem test_sReadn_I10 :
    why (exec (.sReadn 32) (demo (frameA.take 31))) = some .shortStream := by decide

/-! ## The internal steps (95_test_vectors.md sections 2.3, 2.4) -/

/-- R91's example. -/
theorem test_capture32 :
    ((after (exec .capture32 (demo (frameA ++ [0x99])))).map fun t => (t.F, t.S)) =
      some (some frameA, [0x99]) := by decide

/-- K1. -/
theorem test_sum30_K1 :
    ((after (exec .sum30 ((demo []).setFrame frameA))).map (·.sum)) = some (some 0x02C2) := by
  decide

/-- K6: the sum is of bytes, so two swapped bytes leave it unchanged. -/
theorem test_sum30_K6 :
    ((after (exec .sum30 ((demo []).setFrame ((frameA.set 16 0xB0).set 17 0x04)))).map (·.sum)) =
      some (some 706) := by decide

/-- E6. -/
theorem test_be16_E6 :
    ((after (exec (.be16 0x01 0x02) (demo []))).map (·.reply)) = some (some (.word 0x0102)) := by
  decide

/-- E9: no sign extension. -/
theorem test_be16_E9 :
    ((after (exec (.be16 0x97 0x00) (demo []))).map (·.reply)) = some (some (.word 38656)) := by
  decide

/-- R101's example: C[0], C[1], C[2]; R is not written. -/
theorem test_unpack15 :
    ((after (exec .unpack15 ((demo []).setFrame frameA))).map
      fun t => (t.C.map fun c => (c.frame_len, c.pm10_std, c.pm25_std), t.R)) =
      some (some (28, 5, 8), zeros) := by decide

/-- R94 corner case 1: `sum = 0x02C2` does not match `C2 02`. -/
theorem test_cmp16 :
    ((after (exec .cmp16 (((demo []).setSum 0x02C2).setCandidate
      (flatReading 0 0xC202)))).map (·.reply)) = some (some (.bit false)) := by decide

theorem test_publish :
    ((after (exec .publish ((demo []).setCandidate (unpackFrame frameA)))).map
      fun t => (t.R.pm25_env, t.published)) = some (8, true) := by decide

/-! ## The moves of the agents -/

/-- READ 5 after frame A (95_test_vectors.md P1). -/
theorem test_read_P1 :
    ((after (step { planned (.read 5) [] with R := unpackFrame frameA })).map (·.readData)) =
      some (some 8) := by decide

/-- A push past the source's capacity. -/
theorem test_push_overCapacity :
    why (step { planned (.push [0x42, 0x4D]) [] with cap := some 1 }) = some .overCapacity := by
  decide

theorem test_reset_keeps_stream :
    ((after (step { planned .reset [0x05, 0x00, 0x08] with published := true })).map
      fun t => (t.S, t.published, t.cause)) = some ([0x05, 0x00, 0x08], false, none) := by decide

/-! ## Witnesses: for each statement with hypotheses, a state and operands that meet them -/

theorem witness_planned_inv (m : Stmt) : Inv (planned m []) :=
  ⟨rfl, fun h => (by cases h), ⟨rfl, rfl⟩, ⟨rfl, rfl, rfl, rfl⟩⟩

theorem witness_captured : Captured frameA ∧ ChecksumHolds frameA := by decide

theorem witness_captured_invalid : Captured frameJ2 ∧ ¬ ChecksumHolds frameJ2 := by decide

theorem witness_StepRunsDecodedInstruction :
    (demo frameA).phase = none ∧ (demo frameA).schedule = [] ∧
      (demo frameA).turn = 0 ∧ (planned .tick frameA).phase = none ∧ (planned .tick frameA).schedule = .tick :: [] := by
  decide

theorem witness_StepRunsTickOperation :
    (inTick .count1 []).phase = some .count1 ∧ (inTick .count1 []).schedule = [] ∧
      (after (exec (phaseInstr .count1) (inTick .count1 []))).isSome = true ∧
      (inTick .peek []).phase = some .peek ∧
      why (exec (phaseInstr .peek) (inTick .peek [])) = some .emptyStream ∧
      ({ inTick .pop [0x01] with schedule := [.fsd] } : State).schedule = .fsd :: [] := by decide

theorem witness_PlacedWordRuns :
    decodeTableWord 0 0 = some .tick ∧ decodeTableWord 8 0b1111 = some .tAccept ∧
      decodeTableWord 256 (0x42 <<< 248) = some .tReject := by decide

theorem witness_SelectionTable :
    (demo frameA).phase = none ∧ (after (exec .tick (demo frameA))).isSome = true ∧
      keyGe32 frameA = true ∧ keySelects .wait 0b0111#4 = true := by decide

theorem witness_TickKeysDecodeToTheirRows : encode .tWait = some 0b0110#4 := by decide

theorem witness_TickTable :
    (demo []).S = [] ∧
      (demo [0x43]).S = 0x43#8 :: [] ∧ (0x43#8 : Byte) ≠ 0x42#8 ∧
      (demo (frameA.take 31)).S = 0x42#8 :: (frameA.take 31).tail ∧
      (demo (frameA.take 31)).S.length < 32 ∧
      (demo frameJ2).S = frameJ2 ++ [] ∧ Captured frameJ2 ∧ ¬ ChecksumHolds frameJ2 ∧
      (demo (frameA ++ [0x99])).S = frameA ++ [0x99] ∧ Captured frameA ∧ ChecksumHolds frameA := by
  decide

/-- Where the conditions meet: a short, misaligned stream, and 32 bytes exactly. -/
theorem witness_OneCauseByPriority :
    (demo [0x01, 0x02]).phase = none ∧ (demo [0x01, 0x02]).S.length < 32 ∧
      frameByte (demo [0x01, 0x02]).S 0 ≠ 0x42#8 ∧ (demo frameJ2).S.length = 32 := by decide

theorem witness_SuccessExactlyOnValidFrame :
    (demo frameA).phase = none ∧ 32 ≤ (demo frameA).S.length ∧
      frameByte (demo frameA).S 0 = 0x42#8 ∧ byteSum frameA = fieldValue frameA 14 := by decide

/-- Two states with one stream and different readings, flags and cursors. -/
theorem witness_TickDependsOnStreamOnly :
    (demo frameA).phase = none ∧
      ({ demo frameA with R := unpackFrame frameA, published := true, cur := 7 } : State).phase =
        none ∧
      (demo frameA).S =
        ({ demo frameA with R := unpackFrame frameA, published := true, cur := 7 } : State).S := by
  decide

theorem witness_ShortStreamConsumesAtMostOne :
    (demo (frameA.take 31)).phase = none ∧ (demo (frameA.take 31)).S.length < 32 := by decide

theorem witness_AlgorithmStepsMakeTheTick :
    (demo frameA).phase = none ∧ PhaseInv (demo frameA) ∧
      startTick (demo frameA) = .next (inTick .count1 frameA) ∧
      (after (exec .sum30 ((demo []).setFrame frameA))).isSome = true ∧
      (after (exec .unpack15 (((demo []).setFrame frameA).setSum 0x02C2))).isSome = true :=
  ⟨rfl, ⟨rfl, rfl, rfl, rfl⟩, rfl, by decide, by decide⟩

/-- A frame whose last byte arrives between the two counts. -/
theorem witness_SerialTickIsLinearizable :
    (demo (frameA.take 31)).phase = none ∧ PhaseInv (demo (frameA.take 31)) ∧
      8 ≤ ([[], [], [0xC2], [0x99], [], [], [], []] : List (List Byte)).length ∧
      startTick (demo (frameA.take 31)) = .next (inTick .count1 (frameA.take 31)) :=
  ⟨rfl, ⟨rfl, rfl, rfl, rfl⟩, by decide, rfl⟩

theorem witness_IdleTick :
    (demo []).phase = none ∧ (demo []).S = [] ∧ (inTick .count1 []).phase = some .count1 ∧
      (after (microStep (inTick .count1 []))).isSome = true ∧
      (after (exec .tIdle (demo []))).isSome = true := by decide

theorem witness_ResyncTick :
    (demo [0xFF, 0x42]).phase = none ∧ (demo [0xFF, 0x42]).S = 0xFF#8 :: [0x42#8] ∧
      (0xFF#8 : Byte) ≠ 0x42#8 ∧ (demo [0x01]).S = [0x01#8] ∧
      (after (exec .tResync (demo [0x01]))).isSome = true := by decide

theorem witness_WaitTick :
    (demo [0x42]).phase = none ∧ 1 ≤ (demo [0x42]).S.length ∧ (demo [0x42]).S.length ≤ 31 ∧
      frameByte (demo [0x42]).S 0 = 0x42#8 ∧ selectOp (demo (frameA.take 31)).S = .wait ∧
      (after (exec .tWait (demo (frameA.take 31)))).isSome = true := by decide

theorem witness_RejectTick :
    (demo (frameJ2 ++ [0x99])).phase = none ∧ (demo (frameJ2 ++ [0x99])).S = frameJ2 ++ [0x99] ∧
      Captured frameJ2 ∧ ¬ ChecksumHolds frameJ2 := by decide

theorem witness_AcceptTick :
    (demo (frameMx ++ [0x99])).phase = none ∧ (demo (frameMx ++ [0x99])).S = frameMx ++ [0x99] ∧
      Captured frameMx ∧ ChecksumHolds frameMx := by decide

theorem witness_TickOperationsRefusedElsewhere :
    (inTick .capture frameA).phase ≠ none ∧ (demo frameA).phase = none ∧
      selectOp (demo frameA).S ≠ .reject := by decide

theorem witness_AvailAnswersCount : (32 : Nat) ≤ 32 ∧ phaseInstr .count2 = .sAvail := by decide

theorem witness_PeekAnswersHead :
    (demo [0x01, 0x42]).S = 0x01#8 :: [0x42#8] ∧ (demo []).S = [] := by decide

theorem witness_PopRemovesOneByte :
    (demo [0x01]).S = 0x01#8 :: [] ∧ (demo []).S = [] := by decide

theorem witness_CaptureTakesThirtyTwo :
    (demo (frameA ++ [0x99])).S = frameA ++ [0x99] ∧ frameA.length = 32 := by decide

/-- Each step beside its missing input; a block of 31 bytes is none. -/
theorem witness_InternalStepsWithoutInputAreRefused :
    (demo (frameA.take 31)).S.length < 32 ∧ (demo []).F = none ∧
      ((demo []).setFrame (frameA.take 31)).F = some (frameA.take 31) ∧
      (frameA.take 31).length ≠ 32 ∧ (demo []).sum = none ∧
      ((demo []).setSum 1).sum = some 1 ∧ ((demo []).setSum 1).C = none := by decide

theorem witness_ReadTakesExactlyN :
    (demo (frameA ++ [0x99])).S = frameA ++ [0x99] ∧ frameA.length = 32 ∧
      (demo (frameA.take 31)).S.length < 32 ∧ (demo []).S = [] ++ [] ∧
      (after (exec (.sReadn 32) (demo frameA))).isSome = true := by decide

theorem witness_SumIsByteSum :
    ((demo []).setFrame frameA).F = some frameA ∧ frameA.length = 32 ∧
      (frameA.take 30).Perm (frameA.take 30) :=
  ⟨rfl, rfl, .refl _⟩

theorem witness_UnpackIsBijection : Captured (frameA.set 31 0xC3) := by decide

theorem witness_UnpackFillsCandidate :
    ((demo []).setFrame frameA).F = some frameA ∧ frameA.length = 32 ∧
    frameA.drop 2 = (frameA.set 1 0x00).drop 2 ∧ frameA ≠ frameA.set 1 0x00 := by decide

theorem witness_CompareIsEquality :
    (((demo []).setSum 0x02C2).setCandidate (unpackFrame frameA)).sum = some 0x02C2 ∧
      (((demo []).setSum 0x02C2).setCandidate (unpackFrame frameA)).C =
        some (unpackFrame frameA) := by decide

/-- Byte 31 is in lane 14 and in no other; byte 0 is in none. -/
theorem witness_LanesAreIndependent :
    frameA.length = 32 ∧ 31 = 2 + 2 * (14 : Fin 15).val + 1 ∧ (0xC3#8 : Byte) ≠ frameByte frameA 31 ∧
      0 ≠ 2 + 2 * (0 : Fin 15).val ∧ 0 ≠ 2 + 2 * (0 : Fin 15).val + 1 := by decide

theorem witness_PublishWritesReading :
    ((demo []).setCandidate (unpackFrame frameA)).C = some (unpackFrame frameA) ∧
      ({ (demo []).setCandidate zeros with published := true } : State).C =
        some (demo []).R := by decide

theorem witness_SumNeverWraps :
    Captured frameMx ∧ byteSum frameMx = 7461 ∧ 0x1D25 < fieldValue (frameMx.set 31 0x26) 14 ∧
      fieldValue [] 14 < 0x0042 := by decide

theorem witness_ChecksumCatchesOneByte :
    Captured frameA ∧ ChecksumHolds frameA ∧ (0x00#8 : Byte) ≠ frameByte frameA 1 ∧
      (0x43#8 : Byte) ≠ 0x42#8 ∧ Captured ((frameA.set 16 0xB0).set 17 0x04) ∧
      frameA.drop 30 = ((frameA.set 16 0xB0).set 17 0x04).drop 30 ∧
      ((frameA.drop 1).take 29).Perm ((((frameA.set 16 0xB0).set 17 0x04).drop 1).take 29) ∧
      byteSum frameA = byteSum ((frameA.set 16 0xB0).set 17 0x04) := by decide

theorem witness_ByteSwapKeepsSum :
    frameA.length = 32 ∧ frameByte frameA 28 ≠ frameByte frameA 29 := by decide

theorem witness_ValidReadingBounds : ValidReading (unpackFrame frameA) :=
  ⟨frameA, witness_captured.1, witness_captured.2, readingOfFrame_unpackFrame frameA⟩

theorem witness_StepKeepsInvariant :
    Inv (planned .tick []) ∧ (after (step (planned .tick []))).isSome = true :=
  ⟨witness_planned_inv _, by decide⟩

theorem witness_OnlyOutOfContractMovesStop :
    Inv (planned (.read 14) []) ∧
      ∀ m rest, (planned (.read 14) []).schedule = m :: rest →
        InContract m (planned (.read 14) []) := by
  refine ⟨witness_planned_inv _, fun m rest h => ?_⟩
  cases h
  rfl

theorem witness_OutOfContractIsRefused :
    ({ inTick .compare [] with schedule := [.tick] } : State).phase ≠ none ∧
      (planned (.otherConsumer 1) [0x42]).schedule = .otherConsumer 1 :: [] ∧
      (planned (.alterStream []) [0x42]).schedule = .alterStream [] :: [] ∧
      (demo []).S = [] ∧ (demo []).S.length < 1 ∧ (demo []).schedule = [] := by decide

theorem witness_StreamIsFifo :
    (after (step (planned (.push [0x42]) [0x01]))).isSome = true ∧
      (planned (.push [0x42]) [0x01]).nextMove = .push [0x42] ∧
      (after (step (planned (.arrive 3) [0x01]))).isSome = true ∧
      (planned (.arrive 3) [0x01]).nextMove = .arrive 3 ∧
      (inTick .capture frameA).nextMove = .fsd ∧
      (after (step (inTick .capture frameA))).isSome = true := by decide

theorem witness_within_zero (b : Option Nat) : withinCap b 0 = true := by cases b <;> simp [withinCap]

theorem witness_StreamIsSliceOfInput :
    FromIn (planned .tick []) ∧ (after (step (planned .tick []))).isSome = true ∧
      (planned .tick []).nextMove = .tick :=
  ⟨⟨by decide, rfl, witness_within_zero _⟩, by decide, rfl⟩

theorem witness_ReadingChangesOnlyOnSuccess :
    Inv { demo frameA with schedule := [.tick] } ∧
      ({ demo frameA with schedule := [.tick] } : State).nextMove ≠ .reset ∧
      (after (step { demo frameA with schedule := [.tick] })).map (·.R) ≠ some (demo frameA).R :=
  ⟨⟨rfl, fun h => (by cases h), ⟨rfl, rfl⟩, ⟨rfl, rfl, rfl, rfl⟩⟩, by decide, by decide⟩

theorem witness_PublishedIsSetByAcceptOnly :
    Inv { demo frameA with schedule := [.tick] } ∧ (demo frameA).published = false ∧
      (after (step { demo frameA with schedule := [.tick] })).map (·.published) = some true :=
  ⟨witness_ReadingChangesOnlyOnSuccess.1, rfl, by decide⟩

/-- A step that ends a tick, one inside it, and the tick of one step. -/
theorem witness_OutcomeChangesOnlyAtTickEnd :
    (after (step (inTick .pop [0x01]))).map (·.cause) = some (some .resync) ∧
      (inTick .pop [0x01]).phase ≠ none ∧ (inTick .pop [0x01]).nextMove = .fsd ∧
      (after (step (inTick .peek [0x42]))).map (·.phase) = some (some .count2) ∧
      (after (step (planned .tick [0x01]))).map (·.cause) = some (some .resync) ∧
      (planned .tick [0x01]).nextMove = .tick := by decide

/-- The binding whose signals are the state itself, one move a cycle. -/
def oneMoveACycle : PortBinding where
  Signals := State
  view s := s
  clock s := (after (step s)).getD s
  tickLatency := 1
  refines s := by cases h : step s <;> simp [after]
  latency s t h := ⟨0, by decide, fun m hm => by simp [Nat.le_zero.1 hm], by simp [h, after]⟩

theorem witness_PortBindingKeepsInvariant :
    ∃ x : oneMoveACycle.Signals, Inv (oneMoveACycle.view x) ∧
      (oneMoveACycle.view (oneMoveACycle.clock x)).R ≠ (oneMoveACycle.view x).R ∧
      (oneMoveACycle.view x).nextMove ≠ .reset :=
  ⟨({ demo frameA with schedule := [.tick] } : State), witness_ReadingChangesOnlyOnSuccess.1,
    by decide, by decide⟩

theorem witness_HuntingThenAccept :
    (demo ([0x01] ++ frameA ++ [])).phase = none ∧
      ({ demo ([0x01] ++ frameA ++ []) with schedule := [.tick, .tick, .read 5] } : State).schedule =
        List.replicate (([0x01] : List Byte).length + 1) .tick ++ [.read 5] ∧
      (∀ b ∈ ([0x01] : List Byte), b ≠ 0x42#8) ∧ Captured frameA ∧ ChecksumHolds frameA ∧
      frameJ2 ++ [] = 0x42#8 :: frameJ2.tail ∧ 32 ≤ (frameJ2 ++ []).length := by decide

theorem witness_OneFramePerTickOldestFirst :
    (demo ([frameA, frameMx].flatten ++ [0x99])).phase = none ∧
      ({ demo [] with schedule := [.tick, .tick, .read 5] } : State).schedule =
        List.replicate [frameA, frameMx].length .tick ++ [.read 5] ∧
      (∀ f ∈ [frameA, frameMx], Captured f ∧ ChecksumHolds f) ∧
      [frameA, frameMx][1]? = some frameMx := by decide

theorem witness_WaitHasNoTimeout :
    1 ≤ (demo (frameA.take 31)).S.length ∧ (demo (frameA.take 31)).S.length < 32 ∧
      frameByte (demo (frameA.take 31)).S 0 = 0x42#8 ∧
      (planned .tick (frameA.take 31)).schedule = List.replicate (0 + 1) .tick ++ [] := by
  decide

/-- The largest source that is too small, the sentinel at the head. -/
theorem witness_SmallSourceNeverYieldsFrame :
    Inv { demo (frameA.take 31) with cap := some 31 } ∧
      frameByte (demo (frameA.take 31)).S 0 = 0x42#8 ∧ 31 < 32 :=
  ⟨⟨by decide, fun h => (by cases h), ⟨rfl, rfl⟩, ⟨rfl, rfl, rfl, rfl⟩⟩, by decide, by decide⟩

theorem witness_PushAppendsAtTail :
    (planned (.push [0x42]) []).schedule = .push [0x42] :: [] ∧ (planned (.push [0x42]) []).cap = none ∧
      ({ planned (.push [0x42]) [] with cap := some 1 } : State).S.length +
        ([0x42] : List Byte).length ≤ 1 ∧
      0 < ({ planned (.push [0x42]) [] with cap := some 0 } : State).S.length +
        ([0x42] : List Byte).length := by decide

theorem witness_ArrivalDeliversInput :
    (planned (.arrive 3) [0x01]).schedule = .arrive 3 :: [] ∧
      withinCap ({ planned (.arrive 3) [0x01] with cap := some 2 } : State).cap 1 = true ∧
      withinCap Config.lenIn (planned (.arrive 3) [0x01]).inPos = true :=
  ⟨rfl, by decide, witness_within_zero _⟩

theorem witness_HostReadsRegister :
    (planned (.read 0) []).schedule = .read 0 :: [] ∧ (planned (.read 0) []).phase = none := by decide

theorem witness_ResetBetweenTicksKeepsStream :
    (planned .reset [0x42]).schedule = .reset :: [] ∧ (planned .reset [0x42]).phase = none ∧
      ({ inTick .sum [] with schedule := [.reset] } : State).phase ≠ none := by decide

theorem witness_FsdActsOnlyInsideTicks :
    (planned .start [0x42]).schedule = .start :: [] ∧ (planned .fsd [0x42]).schedule = .fsd :: [] ∧
      (planned .start [0x42]).phase = none ∧
      ({ inTick .sum [] with schedule := [.start] } : State).phase ≠ none := by decide

end Sys2Proof.Tests
end

/-! What a move can do to the outcome of the last tick (10_state.md R13, R16, R17), and what follows for `published`. -/

namespace Sys2Proof.Machine

/-- The reading, the flag and the outcome of the last tick stay as they are, and no tick ends. -/
structure KeepsOutcome (s t : State) : Prop where
  R : t.R = s.R
  published : t.published = s.published
  result : t.result = s.result
  cause : t.cause = s.cause
  phase : t.phase = none → s.phase = none

/-- Everything a move other than a reset can do to the outcome: it keeps it, or it ends a tick, which publishes only if its
operation is `T.ACCEPT` (60_exceptions.md R115). -/
inductive OutcomeStep (s t : State) : Prop
  | kept (h : KeepsOutcome s t)
  | failed (c : Cause) (hc : c ≠ .accept) (cause : t.cause = some c) (result : t.result = c.result)
      (phase : t.phase = none) (R : t.R = s.R) (published : t.published = s.published)
  | accepted (cause : t.cause = some .accept) (result : t.result = .success) (phase : t.phase = none)
      (published : t.published = true)

theorem keepsOutcome_takeMove (s : State) : KeepsOutcome s s.takeMove := by
  constructor <;> simp

/-- What comes before a move and keeps the outcome does not change what the move does to it. -/
theorem KeepsOutcome.trans_outcomeStep {s u t : State} (h : KeepsOutcome s u)
    (ht : OutcomeStep u t) : OutcomeStep s t := by
  cases ht with
  | kept k =>
    exact .kept ⟨k.R.trans h.R, k.published.trans h.published, k.result.trans h.result,
      k.cause.trans h.cause, fun hn => h.phase (k.phase hn)⟩
  | failed c hc cause result phase R published =>
    exact .failed c hc cause result phase (R.trans h.R) (published.trans h.published)
  | accepted cause result phase published => exact .accepted cause result phase published

/-- The tick of one step: four of its exits fail, the last one accepts (41_tick_sync.md R80). -/
theorem outcomeStep_tickAlgorithm {s : State} (h : s.phase = none) :
    OutcomeStep s (tickAlgorithm s) := by
  unfold tickAlgorithm
  dsimp only
  split_ifs
  · exact .failed .idle (by decide) rfl rfl h rfl rfl
  · exact .failed .resync (by decide) rfl rfl h rfl rfl
  · exact .failed .wait (by decide) rfl rfl h rfl rfl
  · exact .failed .reject (by decide) rfl rfl h rfl rfl
  · exact .accepted rfl rfl h rfl

/-- Step 8 is the only operation inside a tick that writes `R` or `published`, and none writes `result` or `cause`. -/
theorem keepsOutcome_exec_phaseInstr {p : Phase} {s t : State} (hp : p ≠ .publish)
    (h : exec (phaseInstr p) s = .next t) : KeepsOutcome s t := by
  cases p with
  | count1 =>
    cases (execSAvail_eq s).symm.trans h
    exact ⟨rfl, rfl, rfl, rfl, id⟩
  | peek =>
    obtain ⟨b, rest, -, rfl⟩ := execSPeek_eq_next.1 h
    exact ⟨rfl, rfl, rfl, rfl, id⟩
  | pop =>
    obtain ⟨-, rfl⟩ := execSPop1_eq_next.1 h
    exact ⟨rfl, rfl, rfl, rfl, id⟩
  | count2 =>
    cases (execSAvail_eq s).symm.trans h
    exact ⟨rfl, rfl, rfl, rfl, id⟩
  | capture =>
    obtain ⟨-, rfl⟩ := execCapture32_eq_next.1 h
    exact ⟨rfl, rfl, rfl, rfl, id⟩
  | sum =>
    obtain ⟨f, -, rfl⟩ := execSum30_eq_next.1 h
    exact ⟨rfl, rfl, rfl, rfl, id⟩
  | unpack =>
    obtain ⟨f, -, rfl⟩ := execUnpack15_eq_next.1 h
    exact ⟨rfl, rfl, rfl, rfl, id⟩
  | compare =>
    obtain ⟨v, c, -, -, rfl⟩ := execCmp16_eq_next.1 h
    exact ⟨rfl, rfl, rfl, rfl, id⟩
  | publish => exact absurd rfl hp

/-- A tick in progress ends with `ACCEPT` only after step 8. -/
theorem afterPhase_ne_accept {p : Phase} (hp : p ≠ .publish) (r : Option Reply) :
    afterPhase p r ≠ .inr .accept := by
  cases p with
  | count1 | peek | compare =>
    simp only [afterPhase]
    split <;> simp
  | count2 =>
    simp only [afterPhase]
    split
    · split <;> simp
    · simp
  | pop | capture | sum | unpack => simp [afterPhase]
  | publish => exact absurd rfl hp

/-- After any operation but step 8 the tick goes on or fails. -/
theorem outcomeStep_advance {p : Phase} (hp : p ≠ .publish) (s : State) :
    OutcomeStep s (s.advance p) := by
  unfold State.advance
  split
  · exact .kept ⟨rfl, rfl, rfl, rfl, nofun⟩
  · next c hc =>
    refine .failed c ?_ rfl rfl rfl rfl rfl
    rintro rfl
    exact afterPhase_ne_accept hp s.reply hc

theorem outcomeStep_microStep {s t : State} (h : microStep s = .next t) : OutcomeStep s t := by
  obtain ⟨-, rfl⟩ | ⟨p, u, -, hu, rfl⟩ := microStep_eq_next.1 h
  · exact .kept ⟨rfl, rfl, rfl, rfl, id⟩
  · by_cases hp : p = .publish
    · subst hp
      obtain ⟨c, -, rfl⟩ := execPublish_eq_next.1 hu
      exact .accepted rfl rfl rfl rfl
    · exact (keepsOutcome_exec_phaseInstr hp hu).trans_outcomeStep (outcomeStep_advance hp u)

/-- The moves of the source and of the host's reads keep the outcome; a tick and the FSD's own move may end a tick. -/
theorem outcomeStep_perform {m : Stmt} {s t : State} (hm : m ≠ .reset)
    (h : perform m s = .next t) : OutcomeStep s t := by
  cases m with
  | push bs =>
    obtain ⟨-, rfl⟩ := pushBytes_eq_next.1 h
    exact .kept ⟨rfl, rfl, rfl, rfl, id⟩
  | arrive n =>
    obtain rfl := arriveBytes_eq_next.1 h
    exact .kept ⟨rfl, rfl, rfl, rfl, id⟩
  | tick =>
    obtain ⟨hp, rfl⟩ := execTick_eq_next.1 h
    exact outcomeStep_tickAlgorithm hp
  | start =>
    obtain ⟨-, rfl⟩ := startTick_eq_next.1 h
    exact .kept ⟨rfl, rfl, rfl, rfl, nofun⟩
  | fsd => exact outcomeStep_microStep h
  | read i =>
    obtain ⟨-, rfl⟩ := readField_eq_next.1 h
    exact .kept ⟨rfl, rfl, rfl, rfl, id⟩
  | reset => exact absurd rfl hm
  | otherConsumer n => cases h
  | alterStream bs => cases h

theorem outcomeStep_step {s t : State} (h : step s = .next t) (hm : s.nextMove ≠ .reset) :
    OutcomeStep s t :=
  (keepsOutcome_takeMove s).trans_outcomeStep (outcomeStep_perform hm h)

theorem OutcomeStep.published_mono {s t : State} (h : OutcomeStep s t)
    (hs : s.published = true) : t.published = true := by
  cases h with
  | kept k => exact k.published.trans hs
  | failed _ _ _ _ _ _ published => exact published.trans hs
  | accepted _ _ _ published => exact published

/-- The flag agrees with the cause: a state whose last tick accepted has published (10_state.md R13). -/
theorem OutcomeInv.cause_ne_accept {s : State} (h : OutcomeInv s) (hs : s.published = false) :
    s.cause ≠ some .accept := by
  intro hc
  simp [OutcomeInv, hc, hs] at h

theorem OutcomeStep.published_iff {s t : State} (h : OutcomeStep s t) (hi : OutcomeInv s)
    (hs : s.published = false) : t.published = true ↔ t.cause = some .accept := by
  cases h with
  | kept k => simp [k.published, k.cause, hs, hi.cause_ne_accept hs]
  | failed c hc cause _ _ _ published => simp [cause, published, hs, hc]
  | accepted cause _ _ published => simp [cause, published]

/-- Settles O44: the flag follows from what a step can do to the outcome; the invariant gives that a state that has not yet
published does not hold the cause `ACCEPT` of an earlier tick. -/
theorem publishedIsSetByAcceptOnly : Obligations.PublishedIsSetByAcceptOnly := by
  refine ⟨rfl, fun s t hi ht hm => ?_⟩
  have h : OutcomeStep s t := outcomeStep_step ht hm
  exact ⟨h.published_mono, h.published_iff hi.outcome⟩

end Sys2Proof.Machine

/-! The selection table (30_encoding.md R54): what the key bits say of a stream, and that a tick carries out the operation of the
table's row its stream falls under. -/

namespace Sys2Proof.Machine

/-- A byte of the captured block is the byte of the stream at that offset. -/
theorem frameByte_take {k n : Nat} (s : List Byte) (h : k < n) :
    frameByte (s.take n) k = frameByte s k := by
  simp [frameByte, h]

/-- The checksum equation reads no byte past the block of 32. -/
theorem checksumHolds_take (s : List Byte) : ChecksumHolds (s.take 32) ↔ ChecksumHolds s := by
  have hsum : byteSum (s.take 32) = byteSum s := by
    rw [byteSum_eq, byteSum_eq, List.take_take]
    rfl
  have hfield : fieldValue (s.take 32) 14 = fieldValue s 14 := by
    simp [fieldValue, frameByte_take]
  rw [ChecksumHolds, hsum, hfield]

theorem keyGe32_iff (s : List Byte) : keyGe32 s = true ↔ 32 ≤ s.length := decide_eq_true_iff

theorem keyNz_iff (s : List Byte) : keyNz s = true ↔ 1 ≤ s.length := by
  cases s <;> simp [keyNz]

theorem keyHs_iff (s : List Byte) : keyHs s = true ↔ 1 ≤ s.length ∧ frameByte s 0 = 0x42#8 := by
  cases s <;> simp [keyHs, frameByte]

theorem keyCk_iff (s : List Byte) :
    keyCk s = true ↔ 32 ≤ s.length ∧ frameByte s 0 = 0x42#8 ∧ ChecksumHolds s := by
  simp only [keyCk, Bool.and_eq_true, keyGe32_iff, keyHs_iff, frameValid_iff, Config.frameLen,
    checksumHolds_take]
  constructor
  · rintro ⟨⟨hlen, -, hhead⟩, hck⟩
    exact ⟨hlen, hhead, hck⟩
  · rintro ⟨hlen, hhead, hck⟩
    exact ⟨⟨hlen, by omega, hhead⟩, hck⟩

theorem keyNz_of_keyGe32 {s : List Byte} (h : keyGe32 s = true) : keyNz s = true := by
  rw [keyGe32_iff] at h
  rw [keyNz_iff]
  omega

/-- A key falls under the pattern of the operation it decodes to and under no other: the patterns are disjoint and cover all
sixteen keys. -/
theorem keySelects_iff (k : BitVec 4) (c : Cause) : keySelects c k = true ↔ decodeKey k = c := by
  revert k
  cases c <;> decide

/-- The selection in the spec's own conditions on the stream, the first that holds (60_exceptions.md R114). -/
theorem selectOp_eq_conditions (s : List Byte) :
    selectOp s =
      if s.length = 0 then .idle
      else if frameByte s 0 ≠ 0x42#8 then .resync
      else if s.length < 32 then .wait
      else if ¬ ChecksumHolds s then .reject
      else .accept := by
  rw [selectOp_eq_bits]
  simp only [← Bool.not_eq_true, keyNz_iff, keyHs_iff, keyGe32_iff, keyCk_iff]
  rcases Nat.eq_zero_or_pos s.length with hempty | hnz
  · simp [hempty]
  · by_cases hhead : frameByte s 0 = 0x42#8
    · rcases Nat.lt_or_ge s.length 32 with hshort | hge
      · simp [Nat.one_le_iff_ne_zero, hnz.ne', hhead, hshort, hshort.not_ge]
      · simp [Nat.one_le_iff_ne_zero, hnz.ne', hhead, hge, hge.not_gt]
    · simp [Nat.one_le_iff_ne_zero, hnz.ne', hhead]

/-- The effect of a tick operation's row (60_exceptions.md R115). -/
def State.effectOf (s : State) : Cause → State
  | .idle => s.idleEffect
  | .resync => s.resyncEffect
  | .wait => s.waitEffect
  | .reject => s.rejectEffect
  | .accept => s.acceptEffect

@[simp] theorem State.effectOf_cause (s : State) (c : Cause) : (s.effectOf c).cause = some c := by
  cases c <;> rfl

@[simp] theorem State.effectOf_result (s : State) (c : Cause) :
    (s.effectOf c).result = c.result := by
  cases c <;> rfl

@[simp] theorem State.effectOf_S (s : State) (c : Cause) :
    (s.effectOf c).S = s.S.drop c.consumes := by
  cases c <;> rfl

@[simp] theorem State.effectOf_cur (s : State) (c : Cause) :
    (s.effectOf c).cur = s.cur + c.consumes := by
  cases c <;> rfl

/-- The five exits of the algorithm of 41_tick_sync.md R80 are the five rows, each under the condition that selects it. -/
theorem tickAlgorithm_eq_effectOf (s : State) : tickAlgorithm s = s.effectOf (selectOp s.S) := by
  have hsum : sameSum (frameSum (s.S.take 32))
      (readingGet (unpackFrame (s.S.take 32)) Config.ckIdx) = true ↔ ChecksumHolds s.S :=
    (frameValid_iff _).trans (checksumHolds_take _)
  rw [selectOp_eq_conditions, tickAlgorithm]
  simp only [beq_iff_eq, bne_iff_ne, Bool.not_eq_true', ← Bool.not_eq_true, hsum]
  split_ifs <;> rfl

/-- Settles O5: the key bits and the patterns by their lemmas, and the tick by the effect of the row it selects. -/
theorem selectionTable : Obligations.SelectionTable := by
  refine ⟨fun s => ⟨keyGe32_iff s, keyNz_iff s, keyHs_iff s, keyCk_iff s, rfl,
    (keySelects_iff _ _).2 rfl, keyNz_of_keyGe32⟩, keySelects_iff, rfl, rfl, rfl, rfl, rfl, rfl,
    rfl, rfl, rfl, rfl, fun s t _ ht => ?_⟩
  obtain ⟨-, rfl⟩ := execTick_eq_next.1 ht
  rw [tickAlgorithm_eq_effectOf]
  exact ⟨s.effectOf_cause _, s.effectOf_result _, s.effectOf_S _, s.effectOf_cur _⟩

end Sys2Proof.Machine

/-! The four operations of the byte-stream source (40_stream_interface.md R70 to R73), and which answer brings a tick from one
operation to the next (41_tick_sync.md R80). -/

namespace Sys2Proof.Machine

/-- The straight line of a tick without its exits (41_tick_sync.md R80, R85): `GoesOn p r q` where the operation of `p`, answered
`r`, is followed by the operation of `q`. -/
inductive GoesOn : Phase → Option Reply → Phase → Prop
  | nonempty {r} (h : r ≠ some (.count 0)) : GoesOn .count1 r .peek
  | sentinel : GoesOn .peek (some (.byte 0x42#8)) .count2
  | notSentinel {r} (h : r ≠ some (.byte 0x42#8)) : GoesOn .peek r .pop
  | block {n} (h : 32 ≤ n) : GoesOn .count2 (some (.count n)) .capture
  | captured {r} : GoesOn .capture r .sum
  | summed {r} : GoesOn .sum r .unpack
  | unpacked {r} : GoesOn .unpack r .compare
  | equal : GoesOn .compare (some (.bit true)) .publish

/-- Everything that can come after an operation of a tick that goes on. -/
theorem afterPhase_eq_inl {p q : Phase} {r : Option Reply} :
    afterPhase p r = .inl q ↔ GoesOn p r q := by
  constructor
  · intro h
    cases p with
    | count1 =>
      simp only [afterPhase, beq_iff_eq] at h
      split at h <;> cases h
      exact .nonempty ‹_›
    | peek =>
      simp only [afterPhase, beq_iff_eq] at h
      split at h <;> cases h
      · subst r
        exact .sentinel
      · exact .notSentinel ‹_›
    | count2 =>
      simp only [afterPhase] at h
      split at h
      · split at h <;> cases h
        exact .block (Nat.le_of_not_lt ‹_›)
      · cases h
    | compare =>
      simp only [afterPhase, beq_iff_eq] at h
      split at h <;> cases h
      subst r
      exact .equal
    | capture => cases h; exact .captured
    | sum => cases h; exact .summed
    | unpack => cases h; exact .unpacked
    | pop | publish => cases h
  · rintro (h | _ | h | h | _ | _ | _ | _)
    case nonempty | notSentinel | block => simp [afterPhase, h]
    all_goals rfl

/-- The first count only tells the empty stream from the others. -/
theorem afterPhase_count1_count (n : Nat) :
    afterPhase .count1 (some (.count n)) = if n = 0 then .inr .idle else .inl .peek := by
  simp [afterPhase]

/-- The second count only tells a stream shorter than a block from the others. -/
theorem afterPhase_count2_count (n : Nat) :
    afterPhase .count2 (some (.count n)) = if n < 32 then .inr .wait else .inl .capture := rfl

theorem execSPeek_of_cons {s : State} {b : Byte} {rest : List Byte} (h : s.S = b :: rest) :
    execSPeek s = .next (s.answer (.byte b)) :=
  execSPeek_eq_next.2 ⟨b, rest, h, rfl⟩

theorem execSPeek_of_nil {s : State} (h : s.S = []) : execSPeek s = .refused .emptyStream := by
  simp [execSPeek, h]

theorem execSPop1_of_nil {s : State} (h : s.S = []) : execSPop1 s = .refused .emptyStream := by
  simp [execSPop1, h]

theorem execSReadn_of_lt {n : Nat} {s : State} (h : s.S.length < n) :
    execSReadn n s = .refused .shortStream := by
  simp [execSReadn, h]

/-- Consuming the first bytes of the stream leaves the rest. -/
theorem State.consume_of_append {s : State} {buf rest : List Byte} (h : s.S = buf ++ rest) :
    s.consume buf.length = { s with S := rest, cur := s.cur + buf.length } := by
  simp [State.consume, h]

/-- Reading the first bytes of the stream moves them to the frame buffer. -/
theorem State.strRead_of_append {s : State} {buf rest : List Byte} (h : s.S = buf ++ rest) :
    s.strRead buf.length =
      { s with S := rest, cur := s.cur + buf.length, F := some buf } := by
  simp [State.strRead, State.setFrame, State.consume, h]

/-- Settles O22: the answer by the lemma of `S.AVAIL`; a saturated count falls on the same side of both of the tick's tests. -/
theorem availAnswersCount : Obligations.AvailAnswersCount := by
  refine ⟨execSAvail_eq, fun s => s.arr_sub_cur.symm, fun s bs => ?_, fun p => ?_, ?_⟩
  · simp
  · cases p <;> decide
  · rintro p n m (rfl | rfl) hm
    · have hzero : min n m = 0 ↔ n = 0 := by omega
      simp only [afterPhase_count1_count, hzero]
    · have hshort : min n m < 32 ↔ n < 32 := by omega
      simp only [afterPhase_count2_count, hshort]

/-- Settles O23: the answer by the lemma of `S.PEEK`, a second peek finding the same stream; the first count leads to it. -/
theorem peekAnswersHead : Obligations.PeekAnswersHead := by
  refine ⟨fun s b rest h => ⟨execSPeek_of_cons h, execSPeek_of_cons h⟩,
    fun s h => execSPeek_of_nil h, fun p => ?_, fun p r => afterPhase_eq_inl.trans ⟨?_, ?_⟩⟩
  · cases p <;> decide
  · intro h
    cases h with
    | nonempty hr => exact ⟨rfl, hr⟩
  · rintro ⟨rfl, hr⟩
    exact .nonempty hr

/-- Settles O24: the head is the one byte that is consumed; a peek that did not see the sentinel leads to it. -/
theorem popRemovesOneByte : Obligations.PopRemovesOneByte := by
  refine ⟨fun s b rest h => ?_, fun s h => execSPop1_of_nil h, fun p => ?_,
    fun p r => afterPhase_eq_inl.trans ⟨?_, ?_⟩⟩
  · exact execSPop1_eq_next.2 ⟨by simp [h], State.consume_of_append (buf := [b]) h⟩
  · cases p <;> decide
  · intro h
    cases h with
    | notSentinel hr => exact ⟨rfl, hr⟩
  · rintro ⟨rfl, hr⟩
    exact .notSentinel hr

/-- Settles O25: a read of as many bytes as the stream's first part has takes that part; step 4 is the same read without the answer. -/
theorem readTakesExactlyN : Obligations.ReadTakesExactlyN := by
  refine ⟨?_, fun s n h => execSReadn_of_lt h, fun s t h => ?_, fun p => ?_⟩
  · rintro s n buf rest h rfl
    refine execSReadn_eq_next.2 ⟨by simp [h], ?_⟩
    rw [State.strRead_of_append h, h, List.take_left]
    rfl
  · obtain ⟨hlen, rfl⟩ := execSReadn_eq_next.1 h
    exact execCapture32_eq_next.2 ⟨hlen, rfl⟩
  · cases p <;> decide

end Sys2Proof.Machine

/-! The five rows of the tick (41_tick_sync.md R81, 60_exceptions.md R115): the condition of each on the stream, its whole next state,
and the operations that consume nothing (R82, R84). -/

namespace Sys2Proof.Machine

/-- The condition on the stream under which a tick performs this operation: the rows of 41_tick_sync.md R81, each with the
negations of the rows before it. -/
def Cause.Condition : Cause → List Byte → Prop
  | .idle, s => s = []
  | .resync, s => 1 ≤ s.length ∧ frameByte s 0 ≠ 0x42#8
  | .wait, s => 1 ≤ s.length ∧ s.length ≤ 31 ∧ frameByte s 0 = 0x42#8
  | .reject, s => 32 ≤ s.length ∧ frameByte s 0 = 0x42#8 ∧ ¬ ChecksumHolds s
  | .accept, s => 32 ≤ s.length ∧ frameByte s 0 = 0x42#8 ∧ ChecksumHolds s

theorem condition_selectOp (s : List Byte) : (selectOp s).Condition s := by
  have h := selectOp_eq_conditions s
  split_ifs at h with hempty hhead hshort hck <;> rw [h]
  · exact List.length_eq_zero_iff.1 hempty
  · exact ⟨Nat.pos_of_ne_zero hempty, hhead⟩
  · exact ⟨Nat.pos_of_ne_zero hempty, Nat.le_of_lt_succ hshort, not_not.1 hhead⟩
  · exact ⟨Nat.le_of_not_lt hshort, not_not.1 hhead, hck⟩
  · exact ⟨Nat.le_of_not_lt hshort, not_not.1 hhead, hck⟩

/-- The operation a stream selects is the one whose condition it satisfies. -/
theorem selectOp_eq_iff {s : List Byte} {c : Cause} : selectOp s = c ↔ c.Condition s := by
  constructor
  · rintro rfl
    exact condition_selectOp s
  · intro h
    rw [selectOp_eq_conditions]
    cases c with
    | idle =>
      obtain rfl : s = [] := h
      rfl
    | resync =>
      obtain ⟨hnz, hhead⟩ := h
      rw [if_neg (by omega), if_pos hhead]
    | wait =>
      obtain ⟨hnz, hshort, hhead⟩ := h
      rw [if_neg (by omega), if_neg (not_not.2 hhead), if_pos (by omega)]
    | reject =>
      obtain ⟨hlen, hhead, hck⟩ := h
      rw [if_neg (by omega), if_neg (not_not.2 hhead), if_neg (by omega), if_pos hck]
    | accept =>
      obtain ⟨hlen, hhead, hck⟩ := h
      rw [if_neg (by omega), if_neg (not_not.2 hhead), if_neg (by omega), if_neg (not_not.2 hck)]

theorem condition_resync_cons {b : Byte} (rest : List Byte) (hb : b ≠ 0x42#8) :
    Cause.resync.Condition (b :: rest) :=
  ⟨Nat.le_add_left 1 _, hb⟩

theorem condition_wait_cons {rest : List Byte} (h : (0x42#8 :: rest).length < 32) :
    Cause.wait.Condition (0x42#8 :: rest) :=
  ⟨Nat.le_add_left 1 _, Nat.le_of_lt_succ h, rfl⟩

/-- A stream that begins with a captured block holds enough bytes, the sentinel first. -/
theorem captured_append {f : List Byte} (hf : Captured f) (rest : List Byte) :
    32 ≤ (f ++ rest).length ∧ frameByte (f ++ rest) 0 = 0x42#8 := by
  obtain ⟨hlen, hhead⟩ := hf
  refine ⟨by simp [hlen], ?_⟩
  rw [← hhead, frameByte, frameByte, List.getD_append _ _ _ _ (by omega)]

/-- The checksum equation of a stream is that of the block at its head. -/
theorem checksumHolds_append {f : List Byte} (hf : f.length = 32) (rest : List Byte) :
    ChecksumHolds (f ++ rest) ↔ ChecksumHolds f := by
  rw [← checksumHolds_take, List.take_left' hf]

theorem condition_reject_append {f : List Byte} (hf : Captured f) (hck : ¬ ChecksumHolds f)
    (rest : List Byte) : Cause.reject.Condition (f ++ rest) := by
  obtain ⟨hlen, hhead⟩ := captured_append hf rest
  exact ⟨hlen, hhead, (checksumHolds_append hf.1 rest).not.2 hck⟩

theorem condition_accept_append {f : List Byte} (hf : Captured f) (hck : ChecksumHolds f)
    (rest : List Byte) : Cause.accept.Condition (f ++ rest) := by
  obtain ⟨hlen, hhead⟩ := captured_append hf rest
  exact ⟨hlen, hhead, (checksumHolds_append hf.1 rest).2 hck⟩

@[simp] theorem State.effectOf_phase (s : State) (c : Cause) : (s.effectOf c).phase = s.phase := by
  cases c <;> rfl

theorem exec_tickInstr_eq (s : State) (c : Cause) :
    exec (tickInstr c) s = s.runSelected c (s.effectOf c) := by
  cases c <;> rfl

/-- Everything a tick operation can answer with a next state. -/
theorem exec_tickInstr_eq_next {s t : State} {c : Cause} :
    exec (tickInstr c) s = .next t ↔ s.phase = none ∧ c.Condition s.S ∧ s.effectOf c = t := by
  rw [exec_tickInstr_eq, State.runSelected_eq_next, selectOp_eq_iff]

theorem exec_tick_of_condition {s : State} {c : Cause} (hp : s.phase = none)
    (hc : c.Condition s.S) : exec .tick s = .next (s.effectOf c) := by
  refine execTick_eq_next.2 ⟨hp, ?_⟩
  rw [tickAlgorithm_eq_effectOf, selectOp_eq_iff.2 hc]

theorem State.resyncEffect_of_cons {s : State} {b : Byte} {rest : List Byte} (h : s.S = b :: rest) :
    s.resyncEffect =
      { s with S := rest, cur := s.cur + 1, result := .noData, cause := some .resync } := by
  have hc : s.consume 1 = { s with S := rest, cur := s.cur + 1 } :=
    State.consume_of_append (buf := [b]) h
  rw [State.resyncEffect, hc]
  rfl

theorem State.consume_frameLen_of_append {s : State} {f rest : List Byte} (h : s.S = f ++ rest)
    (hf : f.length = 32) :
    s.consume Config.frameLen = { s with S := rest, cur := s.cur + 32 } := by
  have hc := State.consume_of_append h
  rwa [hf] at hc

theorem State.rejectEffect_of_append {s : State} {f rest : List Byte} (h : s.S = f ++ rest)
    (hf : f.length = 32) :
    s.rejectEffect =
      { s with
        S := rest, cur := s.cur + 32, F := none, sum := none, C := none,
        result := .noData, cause := some .reject } := by
  rw [State.rejectEffect, State.consume_frameLen_of_append h hf]
  rfl

theorem State.acceptEffect_of_append {s : State} {f rest : List Byte} (h : s.S = f ++ rest)
    (hf : f.length = 32) :
    s.acceptEffect =
      { s with
        S := rest, cur := s.cur + 32, R := unpackFrame f, published := true, F := none, sum := none,
        C := none, result := .success, cause := some .accept } := by
  have htake : s.S.take Config.frameLen = f := by rw [h, List.take_left' hf]
  rw [State.acceptEffect, State.consume_frameLen_of_append h hf, htake]
  rfl

/-- Settles O8: each row's condition selects its operation, whose effect is the row's next state. -/
theorem tickTable : Obligations.TickTable := by
  intro s hp
  refine ⟨⟨_, exec_tick_of_condition hp (condition_selectOp s.S)⟩, fun h => ?_,
    fun b rest h hb => ?_, fun rest h hlen => ?_, fun f rest h hf hck => ?_,
    fun f rest h hf hck => ⟨unpackFrame f, readingOfFrame_unpackFrame f, ?_⟩⟩
  · exact exec_tick_of_condition (c := .idle) hp h
  · rw [← State.resyncEffect_of_cons h]
    exact exec_tick_of_condition (c := .resync) hp (h ▸ condition_resync_cons rest hb)
  · rw [h] at hlen
    exact exec_tick_of_condition (c := .wait) hp (h ▸ condition_wait_cons hlen)
  · rw [← State.rejectEffect_of_append h hf.1]
    exact exec_tick_of_condition (c := .reject) hp (h ▸ condition_reject_append hf hck rest)
  · rw [← State.acceptEffect_of_append h hf.1]
    exact exec_tick_of_condition (c := .accept) hp (h ▸ condition_accept_append hf hck rest)

/-- After an operation that consumes nothing the stream selects it again, and doing it again writes what already stands: with
nothing arrived a further tick changes nothing. -/
theorem exec_tick_of_exec_tickInstr {s t : State} {c : Cause} (hc : c.consumes = 0)
    (h : exec (tickInstr c) s = .next t) : exec .tick t = .next t := by
  obtain ⟨hp, hcond, rfl⟩ := exec_tickInstr_eq_next.1 h
  have hS : (s.effectOf c).S = s.S := by rw [State.effectOf_S, hc, List.drop_zero]
  have hagain : (s.effectOf c).effectOf c = s.effectOf c := by
    cases c with
    | idle | wait => rfl
    | resync | reject | accept => cases hc
  rw [exec_tick_of_condition ((s.effectOf_phase c).trans hp) (hS ▸ hcond), hagain]

/-- Inside a tick, the first count of an empty stream ends the tick. -/
theorem microStep_count1_of_nil {s : State} (hp : s.phase = some .count1) (h : s.S = []) :
    microStep s = .next (s.completeTick .idle) := by
  refine microStep_eq_next.2 (.inr ⟨.count1, s.answer (.count 0), hp, ?_, rfl⟩)
  exact (execSAvail_eq s).trans (by rw [h]; rfl)

/-- Settles O16: an empty stream stays empty, so a further tick selects `T.IDLE` again. -/
theorem idleTick : Obligations.IdleTick := by
  refine ⟨fun s => selectOp_eq_iff, fun s hp h => ?_, fun s t hp h ht => ?_, fun s t _ ht => ?_⟩
  · exact exec_tickInstr_eq_next (c := .idle).2 ⟨hp, h, rfl⟩
  · cases (microStep_count1_of_nil hp h).symm.trans ht
    exact ⟨rfl, rfl, rfl⟩
  · exact exec_tick_of_exec_tickInstr (c := .idle) rfl ht

/-- Settles O17: the effect drops the head byte; after a lone byte the stream is empty, which selects `T.IDLE`. -/
theorem resyncTick : Obligations.ResyncTick := by
  refine ⟨fun s => selectOp_eq_iff, fun s b rest hp h hb => ?_, fun s t b _ h ht => ?_⟩
  · refine exec_tickInstr_eq_next (c := .resync).2 ⟨hp, ?_, State.resyncEffect_of_cons h⟩
    exact h ▸ condition_resync_cons rest hb
  · obtain ⟨hp, -, rfl⟩ := exec_tickInstr_eq_next (c := .resync).1 ht
    refine exec_tick_of_condition (c := .idle) hp ?_
    show s.S.drop 1 = []
    rw [h]
    rfl

/-- Settles O18: the sentinel and the count stay, so a further tick selects `T.WAIT` again. -/
theorem waitTick : Obligations.WaitTick := by
  refine ⟨fun s => selectOp_eq_iff, fun s hp hnz hshort hhead => ?_, fun s t _ _ ht => ?_⟩
  · exact exec_tickInstr_eq_next (c := .wait).2 ⟨hp, ⟨hnz, hshort, hhead⟩, rfl⟩
  · exact exec_tick_of_exec_tickInstr (c := .wait) rfl ht

end Sys2Proof.Machine

/-! The capture of a block, its checksum and the comparison (42_capture_checksum.md R91 to R94), and the tick that fails it (R97). -/

namespace Sys2Proof.Machine

theorem State.consume_consume (s : State) (m n : Nat) :
    (s.consume m).consume n = s.consume (m + n) := by
  simp [State.consume, Nat.add_assoc]

/-- Bytes popped one at a time leave what one read of them leaves (42_capture_checksum.md R91). -/
theorem State.consume_one_iterate (s : State) (n : Nat) :
    (fun u : State => u.consume 1)^[n] s = s.consume n := by
  induction n with
  | zero => rfl
  | succ n ih => rw [Function.iterate_succ_apply', ih, State.consume_consume]

/-- The sum of a frame depends only on which thirty bytes it begins with, not on their order. -/
theorem byteSum_eq_of_perm {f g : List Byte} (h : (f.take 30).Perm (g.take 30)) :
    byteSum f = byteSum g := by
  rw [byteSum_eq, byteSum_eq]
  exact (h.map BitVec.toNat).sum_eq

/-- The comparison is the equality of the two values as numbers: it reads all 16 bits. -/
theorem sameSum_eq_decide_toNat (a b : Half) : sameSum a b = decide (a.toNat = b.toNat) := by
  rw [Bool.eq_iff_iff, sameSum, beq_iff_eq, decide_eq_true_iff, BitVec.toNat_inj]

/-- Settles O19: the row's condition selects the operation, and its effect on a stream that begins with the block is the row's next
state. -/
theorem rejectTick : Obligations.RejectTick := by
  refine ⟨fun s => selectOp_eq_iff, fun s f rest hp h hf hck => ?_⟩
  refine exec_tickInstr_eq_next (c := .reject).2 ⟨hp, ?_, State.rejectEffect_of_append h hf.1⟩
  exact h ▸ condition_reject_append hf hck rest

/-- Settles O26: the capture is a read of the stream's first part; the pops, one by one, consume the same bytes. -/
theorem captureTakesThirtyTwo : Obligations.CaptureTakesThirtyTwo := by
  intro s f rest h hf
  refine ⟨execCapture32_eq_next.2 ⟨by simp [h, hf], ?_⟩, ?_, ?_⟩
  · have hread := State.strRead_of_append h
    rwa [hf] at hread
  · rw [← frameByte_take s.S (show 0 < 32 by decide), h, List.take_left' hf]
  · rw [State.consume_one_iterate]
    exact State.consume_frameLen_of_append h hf

/-- Settles O27: the wrapping sum is the sum of the numbers modulo 65536, and that sum does not see the order. -/
theorem sumIsByteSum : Obligations.SumIsByteSum := by
  refine ⟨fun s f hF hf => ⟨frameSum f, frameSum_toNat f, ?_⟩, fun f g => byteSum_eq_of_perm⟩
  exact execSum30_eq_next.2 ⟨f, ⟨hF, hf⟩, rfl⟩

/-- Settles O28: the answer is the equality of the two numbers, and each of its two values has one successor in the tick. -/
theorem compareIsEquality : Obligations.CompareIsEquality := by
  refine ⟨fun s v c hv hc => execCmp16_eq_next.2 ⟨v, c, hv, hc, ?_⟩,
    fun f => readingOfFrame_unpackFrame f 14, afterPhase_eq_inl.2 .equal, rfl⟩
  rw [sameSum_eq_decide_toNat]
  rfl

end Sys2Proof.Machine

/-! The deserializer (43_deserialize_publish.md R100 to R103): which bytes each lane reads, and the frame that a reading comes from. -/

namespace Sys2Proof.Machine

/-! ### Bytes of a frame -/

theorem frameByte_drop (f : List Byte) (n k : Nat) :
    frameByte (f.drop n) k = frameByte f (n + k) := by
  simp [frameByte]

theorem frameByte_set_same {f : List Byte} {k : Nat} (hk : k < f.length) (b : Byte) :
    frameByte (f.set k b) k = b := by
  simp [frameByte, hk]

theorem frameByte_set_ne {k j : Nat} (h : k ≠ j) (f : List Byte) (b : Byte) :
    frameByte (f.set k b) j = frameByte f j := by
  simp [frameByte, h]

/-- Two blocks of one length are equal where their bytes are. -/
theorem frame_ext {f g : List Byte} (hlen : f.length = g.length)
    (h : ∀ k < f.length, frameByte f k = frameByte g k) : f = g := by
  refine List.ext_getElem hlen fun k hf hg => ?_
  have hk := h k hf
  rwa [frameByte, frameByte, List.getD_eq_getElem _ _ hf, List.getD_eq_getElem _ _ hg] at hk

/-! ### The big-endian pair and its lane -/

theorem highByte_toNat_eq_shiftRight (v : Half) : (highByte v).toNat = v.toNat >>> 8 := by
  rw [highByte_toNat, Nat.shiftRight_eq_div_pow]

theorem lowByte_toNat_eq_and (v : Half) : (lowByte v).toNat = v.toNat &&& 0xFF := by
  rw [lowByte_toNat]
  exact (Nat.and_two_pow_sub_one_eq_mod v.toNat 8).symm

theorem highByte_frameField (f : List Byte) (i : Nat) :
    highByte (frameField f i) = frameByte f (2 + 2 * i) :=
  highByte_assembleBE _ _

theorem lowByte_frameField (f : List Byte) (i : Nat) :
    lowByte (frameField f i) = frameByte f (2 + 2 * i + 1) :=
  lowByte_assembleBE _ _

/-- A lane is exactly its two bytes: frames agree on the field where, and only where, they agree on both
(43_deserialize_publish.md R102). -/
theorem frameField_eq_iff {f g : List Byte} {i : Nat} :
    frameField f i = frameField g i ↔
      frameByte f (2 + 2 * i) = frameByte g (2 + 2 * i) ∧
        frameByte f (2 + 2 * i + 1) = frameByte g (2 + 2 * i + 1) := by
  constructor
  · intro h
    rw [← highByte_frameField, ← lowByte_frameField, h]
    exact ⟨highByte_frameField g i, lowByte_frameField g i⟩
  · rintro ⟨hhi, hlo⟩
    exact congrArg₂ assembleBE hhi hlo

/-- Bytes 0 and 1 of a frame are in no field (43_deserialize_publish.md R101). -/
theorem unpackFrame_eq_of_drop {f g : List Byte} (h : f.drop 2 = g.drop 2) :
    unpackFrame f = unpackFrame g := by
  have hbyte (k : Nat) : frameByte f (2 + k) = frameByte g (2 + k) := by
    rw [← frameByte_drop, ← frameByte_drop, h]
  refine reading_ext fun i => ?_
  rw [readingGet_unpackFrame, readingGet_unpackFrame, frameField_eq_iff]
  exact ⟨hbyte _, hbyte (2 * i.val + 1)⟩

/-! ### The frame of a reading -/

/-- The bytes of a list of fields: two for each, the high byte at the even offset (43_deserialize_publish.md R103). -/
theorem frameByte_fieldBytes (l : List Half) (i : Nat) :
    frameByte (fieldBytes l) (2 * i) = highByte (l.getD i 0#16) ∧
      frameByte (fieldBytes l) (2 * i + 1) = lowByte (l.getD i 0#16) := by
  induction l generalizing i with
  | nil => simp [fieldBytes, frameByte, highByte, lowByte]
  | cons v l ih =>
    cases i with
    | zero => exact ⟨rfl, rfl⟩
    | succ i => exact ih i

theorem frameByte_encodeFrame_add_two (m : Byte) (c : Reading) (k : Nat) :
    frameByte (encodeFrame m c) (2 + k) = frameByte (fieldBytes (readingFields c)) k := by
  rw [← frameByte_drop]
  rfl

theorem frameByte_encodeFrame_high (m : Byte) (c : Reading) (i : Fin 15) :
    frameByte (encodeFrame m c) (2 + 2 * i.val) = highByte (readingGet c i) := by
  rw [frameByte_encodeFrame_add_two]
  exact (frameByte_fieldBytes _ i.val).1

theorem frameByte_encodeFrame_low (m : Byte) (c : Reading) (i : Fin 15) :
    frameByte (encodeFrame m c) (2 + 2 * i.val + 1) = lowByte (readingGet c i) := by
  rw [Nat.add_assoc, frameByte_encodeFrame_add_two]
  exact (frameByte_fieldBytes _ i.val).2

theorem frameField_encodeFrame (m : Byte) (c : Reading) (i : Fin 15) :
    frameField (encodeFrame m c) i.val = readingGet c i := by
  rw [← assembleBE_high_low (readingGet c i), ← frameByte_encodeFrame_high m,
    ← frameByte_encodeFrame_low m]
  rfl

theorem unpackFrame_encodeFrame (m : Byte) (c : Reading) : unpackFrame (encodeFrame m c) = c :=
  reading_ext fun i => by rw [readingGet_unpackFrame, frameField_encodeFrame]

/-- An offset of a block is that of the sentinel or the marker, or of one of the two bytes of a lane (30_encoding.md R51). -/
theorem offset_cases {k : Nat} (hk : k < 32) :
    k = 0 ∨ k = 1 ∨ ∃ i : Fin 15, k = 2 + 2 * i.val ∨ k = 2 + 2 * i.val + 1 := by
  rcases Nat.lt_or_ge k 2 with hlt | hge
  · omega
  · exact .inr (.inr ⟨⟨(k - 2) / 2, by omega⟩, by dsimp only; omega⟩)

/-- A captured block is the frame of its reading and its second byte. -/
theorem encodeFrame_unpackFrame {f : List Byte} (hf : Captured f) :
    encodeFrame (frameByte f 1) (unpackFrame f) = f := by
  obtain ⟨hlen, hhead⟩ := hf
  refine frame_ext (by rw [encodeFrame_length, hlen]) fun k hk => ?_
  rw [encodeFrame_length] at hk
  obtain rfl | rfl | ⟨i, rfl | rfl⟩ := offset_cases hk
  · exact hhead.symm
  · rfl
  · rw [frameByte_encodeFrame_high, readingGet_unpackFrame, highByte_frameField]
  · rw [frameByte_encodeFrame_low, readingGet_unpackFrame, lowByte_frameField]

theorem fieldBytes_take (l : List Half) (n : Nat) :
    (fieldBytes l).take (2 * n) = fieldBytes (l.take n) := by
  induction l generalizing n with
  | nil => simp [fieldBytes]
  | cons v l ih =>
    cases n with
    | zero => rfl
    | succ n => simp [fieldBytes, Nat.mul_succ, ih]

theorem sum_fieldBytes (l : List Half) :
    ((fieldBytes l).map BitVec.toNat).sum =
      (l.map fun v => (v.toNat >>> 8) + (v.toNat &&& 0xFF)).sum := by
  induction l with
  | nil => rfl
  | cons v l ih =>
    simp only [fieldBytes, List.map_cons, List.sum_cons, ih, highByte_toNat_eq_shiftRight,
      lowByte_toNat_eq_and, Nat.add_assoc]

/-- The summed bytes of a frame are the sentinel, the marker and the bytes of fields 0 to 13 (43_deserialize_publish.md R103). -/
theorem byteSum_encodeFrame (m : Byte) (c : Reading) :
    byteSum (encodeFrame m c) = 0x42 + m.toNat + fieldByteSum c := by
  have htake : (encodeFrame m c).take 30 =
      Config.sentinel :: m :: fieldBytes ((readingFields c).take 14) := by
    rw [← fieldBytes_take]
    rfl
  rw [byteSum_eq, htake, List.map_cons, List.map_cons, List.sum_cons, List.sum_cons, sum_fieldBytes,
    ← Nat.add_assoc]
  rfl

/-- A frame is valid where its checksum field is the plain sum: thirty bytes do not reach 65536. -/
theorem checksumHolds_encodeFrame (m : Byte) (c : Reading) :
    ChecksumHolds (encodeFrame m c) ↔ 0x42 + m.toNat + fieldByteSum c = (readingGet c 14).toNat := by
  have hle := byteSum_le (encodeFrame m c)
  have hfield : fieldValue (encodeFrame m c) 14 = (readingGet c 14).toNat := by
    rw [← frameField_toNat]
    exact congrArg BitVec.toNat (frameField_encodeFrame m c 14)
  rw [ChecksumHolds, hfield, Nat.mod_eq_of_lt (by omega), byteSum_encodeFrame]

/-- Settles O32: each byte of a frame is the sentinel, the marker or a half of one field, so that encoding and unpacking undo each
other; solving the checksum equation for the marker loses nothing modulo 65536, since both sides lie below it. -/
theorem unpackIsBijection : Obligations.UnpackIsBijection := by
  refine ⟨fun m c => ⟨unpackFrame_encodeFrame m c, fun i => ⟨?_, ?_⟩⟩,
    fun f hf => encodeFrame_unpackFrame hf, fun m c => ?_⟩
  · rw [frameByte_encodeFrame_high, highByte_toNat_eq_shiftRight]
  · rw [frameByte_encodeFrame_low, lowByte_toNat_eq_and]
  · have hck := (readingGet c 14).isLt
    have hsum := byteSum_le (encodeFrame m c)
    rw [byteSum_encodeFrame] at hsum
    rw [checksumHolds_encodeFrame]
    omega

/-- Settles O31: a lane is exactly its two bytes, and setting one offset changes the byte there and no other. -/
theorem lanesAreIndependent : Obligations.LanesAreIndependent := by
  intro f k b i hf hk
  simp only [readingGet_unpackFrame, ne_eq, frameField_eq_iff]
  refine ⟨fun hhi hlo => ⟨frameByte_set_ne hhi f b, frameByte_set_ne hlo f b⟩, ?_⟩
  rintro hlane hb ⟨hhi, hlo⟩
  have hkept : frameByte (f.set k b) k = frameByte f k := by
    obtain rfl | rfl := hlane
    · exact hhi
    · exact hlo
  rw [frameByte_set_same (hf ▸ hk)] at hkept
  exact hb hkept

/-- Settles O29: the assembly as a number, and its two halves as its inverse. -/
theorem assembleBigEndian : Obligations.AssembleBigEndian :=
  ⟨fun hi lo _ => ⟨assembleBE hi lo, assembleBE_toNat hi lo, rfl⟩,
    fun hi lo => ⟨highByte_assembleBE hi lo, lowByte_assembleBE hi lo⟩,
    fun v => ⟨assembleBE_high_low v, highByte_toNat_eq_shiftRight v, lowByte_toNat_eq_and v⟩⟩

/-- Settles O30: the candidate is the unpacked block, whose fields are those of its frame; the straight line of the tick puts it
between SUM30 and the comparison. -/
theorem unpackFillsCandidate : Obligations.UnpackFillsCandidate := by
  refine ⟨fun s f hF hf => ⟨unpackFrame f, readingOfFrame_unpackFrame f, ?_⟩,
    fun f g => unpackFrame_eq_of_drop,
    fun r => ⟨afterPhase_eq_inl.2 .summed, afterPhase_eq_inl.2 .unpacked⟩⟩
  exact execUnpack15_eq_next.2 ⟨f, ⟨hF, hf⟩, rfl⟩

end Sys2Proof.Machine

/-! The publication of a candidate (43_deserialize_publish.md R104), and the tick that ends with it (R105). -/

namespace Sys2Proof.Machine

/-- Publishing the reading that is already published is not observable. -/
theorem State.publish_self {s : State} (h : s.published = true) : s.publish s.R = s := by
  rw [State.publish, ← h]

/-- Settles O33: what the step writes by its lemma; of the answers that bring a tick to step 8 there is one. -/
theorem publishWritesReading : Obligations.PublishWritesReading := by
  refine ⟨fun s c hc => execPublish_eq_next.2 ⟨c, hc, rfl⟩,
    fun s hc hp => execPublish_eq_next.2 ⟨s.R, hc, State.publish_self hp⟩,
    fun p r => afterPhase_eq_inl.trans ⟨?_, ?_⟩⟩
  · intro h
    cases h with
    | equal => exact ⟨rfl, rfl⟩
  · rintro ⟨rfl, rfl⟩
    exact .equal

/-- Settles O20: the row's condition selects the operation, and its effect on a stream that begins with the block publishes the
block's reading. -/
theorem acceptTick : Obligations.AcceptTick := by
  refine ⟨fun s => selectOp_eq_iff,
    fun s f rest hp h hf hck => ⟨unpackFrame f, readingOfFrame_unpackFrame f, ?_⟩⟩
  refine exec_tickInstr_eq_next (c := .accept).2 ⟨hp, ?_, State.acceptEffect_of_append h hf.1⟩
  exact h ▸ condition_accept_append hf hck rest

end Sys2Proof.Machine

/-! Frames as encodings (30_encoding.md R51, R52): the operation a stream that begins with a captured block selects depends on its
checksum alone. -/

namespace Sys2Proof.Machine

theorem captured_encodeFrame (m : Byte) (c : Reading) : Captured (encodeFrame m c) :=
  ⟨encodeFrame_length m c, rfl⟩

theorem decode_of_condition {s : List Byte} {c : Cause} (h : c.Condition s) :
    decode s = tickInstr c := by
  rw [decode, selectOp_eq_iff.2 h]

theorem decode_captured_append {f : List Byte} (hf : Captured f) (rest : List Byte) :
    decode (f ++ rest) = if ChecksumHolds f then .tAccept else .tReject := by
  by_cases hck : ChecksumHolds f
  · rw [if_pos hck, decode_of_condition (condition_accept_append hf hck rest)]
    rfl
  · rw [if_neg hck, decode_of_condition (condition_reject_append hf hck rest)]
    rfl

theorem checksumHolds_encodeFrame_iff (m : Byte) (c : Reading) :
    ChecksumHolds (encodeFrame m c) ↔ c.checksum.toNat = byteSum (encodeFrame m c) := by
  rw [checksumHolds_encodeFrame, byteSum_encodeFrame, eq_comm]
  rfl

theorem frameSum_toNat_eq_byteSum (f : List Byte) : (frameSum f).toNat = byteSum f := by
  have hle := byteSum_le f
  rw [frameSum_toNat, Nat.mod_eq_of_lt (by omega)]

/-- The summed bytes of a frame do not reach its checksum field, so writing the field leaves the sum it is to hold. -/
theorem checksumHolds_withChecksum (m : Byte) (c : Reading) :
    ChecksumHolds (encodeFrame m (withChecksum m c)) := by
  have hsum : byteSum (encodeFrame m (withChecksum m c)) = byteSum (encodeFrame m c) := by
    rw [byteSum_encodeFrame, byteSum_encodeFrame]
    rfl
  rw [checksumHolds_encodeFrame_iff, hsum]
  exact frameSum_toNat_eq_byteSum _

/-- Settles O6: an encoded frame is a captured block, whatever its marker and fields, so that its checksum alone decides between
the two operations. -/
theorem frameDecodesByItsChecksum : Obligations.FrameDecodesByItsChecksum := by
  intro m c rest
  refine ⟨?_, encodeFrame_length m c, rfl, rfl, unpackFrame_encodeFrame m c, ?_⟩
  · simp only [decode_captured_append (captured_encodeFrame m c), checksumHolds_encodeFrame_iff]
  · rw [decode_captured_append (captured_encodeFrame m _), if_pos (checksumHolds_withChecksum m c)]

end Sys2Proof.Machine

/-! What a move can do to the stream (10_state.md R14, R15, 20_memory.md R31): the source's moves put bytes at its tail, every other
move takes 0, 1 or 32 of them from its head. -/

namespace Sys2Proof.Machine

@[simp] theorem State.advance_S (s : State) (p : Phase) : (s.advance p).S = s.S := by
  unfold State.advance; split <;> rfl
@[simp] theorem State.advance_cur (s : State) (p : Phase) : (s.advance p).cur = s.cur := by
  unfold State.advance; split <;> rfl
@[simp] theorem State.advance_R (s : State) (p : Phase) : (s.advance p).R = s.R := by
  unfold State.advance; split <;> rfl
@[simp] theorem State.advance_published (s : State) (p : Phase) :
    (s.advance p).published = s.published := by
  unfold State.advance; split <;> rfl
@[simp] theorem State.advance_inPos (s : State) (p : Phase) : (s.advance p).inPos = s.inPos := by
  unfold State.advance; split <;> rfl
@[simp] theorem State.advance_cap (s : State) (p : Phase) : (s.advance p).cap = s.cap := by
  unfold State.advance; split <;> rfl

@[simp] theorem State.effectOf_inPos (s : State) (c : Cause) : (s.effectOf c).inPos = s.inPos := by
  cases c <;> rfl
@[simp] theorem State.effectOf_cap (s : State) (c : Cause) : (s.effectOf c).cap = s.cap := by
  cases c <;> rfl

/-- From `s` to `t` exactly the first `n` unread bytes leave the stream, counted by the cursor (10_state.md R15). -/
structure Takes (n : Nat) (s t : State) : Prop where
  available : n ≤ s.S.length
  S : t.S = s.S.drop n
  cur : t.cur = s.cur + n
  inPos : t.inPos = s.inPos
  cap : t.cap = s.cap

/-- From `s` to `t` these bytes enter the stream at its tail; which bytes of `In` come next is not said. -/
structure Gains (bs : List Byte) (s t : State) : Prop where
  S : t.S = s.S ++ bs
  cur : t.cur = s.cur
  cap : t.cap = s.cap

theorem takes_zero {s t : State} (hS : t.S = s.S) (hcur : t.cur = s.cur) (hin : t.inPos = s.inPos)
    (hcap : t.cap = s.cap) : Takes 0 s t :=
  ⟨Nat.zero_le _, hS, hcur, hin, hcap⟩

/-- A tick operation finds the bytes that it consumes. -/
theorem Cause.Condition.consumes_le {c : Cause} {s : List Byte} (h : c.Condition s) :
    c.consumes ≤ s.length := by
  cases c with
  | idle | wait => exact Nat.zero_le _
  | resync | reject | accept => exact h.1

theorem takes_tickAlgorithm (s : State) :
    Takes (selectOp s.S).consumes s (tickAlgorithm s) := by
  rw [tickAlgorithm_eq_effectOf]
  exact ⟨(condition_selectOp s.S).consumes_le, by simp, by simp, by simp, by simp⟩

/-- The bytes that the operation at this point of a tick takes (41_tick_sync.md R80). -/
def Phase.takes : Phase → Nat
  | .pop => 1
  | .capture => 32
  | _ => 0

theorem takes_exec_phaseInstr {p : Phase} {s t : State} (h : exec (phaseInstr p) s = .next t) :
    Takes p.takes s t := by
  cases p with
  | count1 | count2 =>
    cases (execSAvail_eq s).symm.trans h
    exact takes_zero rfl rfl rfl rfl
  | peek =>
    obtain ⟨b, rest, -, rfl⟩ := execSPeek_eq_next.1 h
    exact takes_zero rfl rfl rfl rfl
  | pop =>
    obtain ⟨hne, rfl⟩ := execSPop1_eq_next.1 h
    exact ⟨List.length_pos_iff.2 hne, rfl, rfl, rfl, rfl⟩
  | capture =>
    obtain ⟨hlen, rfl⟩ := execCapture32_eq_next.1 h
    exact ⟨hlen, rfl, rfl, rfl, rfl⟩
  | sum =>
    obtain ⟨f, -, rfl⟩ := execSum30_eq_next.1 h
    exact takes_zero rfl rfl rfl rfl
  | unpack =>
    obtain ⟨f, -, rfl⟩ := execUnpack15_eq_next.1 h
    exact takes_zero rfl rfl rfl rfl
  | compare =>
    obtain ⟨v, c, -, -, rfl⟩ := execCmp16_eq_next.1 h
    exact takes_zero rfl rfl rfl rfl
  | publish =>
    obtain ⟨c, -, rfl⟩ := execPublish_eq_next.1 h
    exact takes_zero rfl rfl rfl rfl

/-- What one FSD move takes: nothing between ticks, and inside a tick what its operation takes. -/
def State.microTakes (s : State) : Nat := s.phase.elim 0 Phase.takes

theorem takes_microStep {s t : State} (h : microStep s = .next t) : Takes s.microTakes s t := by
  obtain ⟨hp, rfl⟩ | ⟨p, u, hp, hu, rfl⟩ := microStep_eq_next.1 h
  · rw [State.microTakes, hp]
    exact takes_zero rfl rfl rfl rfl
  · obtain ⟨hav, hS, hcur, hin, hcap⟩ := takes_exec_phaseInstr hu
    rw [State.microTakes, hp]
    exact ⟨hav, by simpa using hS, by simpa using hcur, by simpa using hin, by simpa using hcap⟩

/-- Everything a step other than a reset can do to the stream. -/
inductive StreamStep (s t : State) : Stmt → Prop
  | push (bs : List Byte) (fits : withinCap s.cap (s.S.length + bs.length) = true)
      (gains : Gains bs s t) (inPos : t.inPos = s.inPos) : StreamStep s t (.push bs)
  | arrive (n : Nat) (gains : Gains (inSlice s.inPos (s.canArrive n)) s t)
      (inPos : t.inPos = s.inPos + s.canArrive n) : StreamStep s t (.arrive n)
  | other (m : Stmt) (n : Nat) (hpush : ∀ bs, m ≠ .push bs) (harrive : ∀ k, m ≠ .arrive k)
      (hn : n = 0 ∨ n = 1 ∨ n = 32) (takes : Takes n s t) : StreamStep s t m

theorem Cause.consumes_cases (c : Cause) :
    c.consumes = 0 ∨ c.consumes = 1 ∨ c.consumes = 32 := by
  cases c <;> decide

theorem State.microTakes_cases (s : State) :
    s.microTakes = 0 ∨ s.microTakes = 1 ∨ s.microTakes = 32 := by
  unfold State.microTakes
  rcases s.phase with _ | p
  · exact .inl rfl
  · cases p <;> decide

theorem streamStep_perform {m : Stmt} {s t : State} (hm : m ≠ .reset)
    (h : perform m s = .next t) : StreamStep s t m := by
  cases m with
  | push bs =>
    obtain ⟨hfits, rfl⟩ := pushBytes_eq_next.1 h
    exact .push bs hfits ⟨rfl, rfl, rfl⟩ rfl
  | arrive n =>
    obtain rfl := arriveBytes_eq_next.1 h
    exact .arrive n ⟨rfl, rfl, rfl⟩ rfl
  | tick =>
    obtain ⟨-, rfl⟩ := execTick_eq_next.1 h
    exact .other _ _ nofun nofun (Cause.consumes_cases _) (takes_tickAlgorithm s)
  | start =>
    obtain ⟨-, rfl⟩ := startTick_eq_next.1 h
    exact .other _ 0 nofun nofun (.inl rfl) (takes_zero rfl rfl rfl rfl)
  | fsd => exact .other _ _ nofun nofun s.microTakes_cases (takes_microStep h)
  | read i =>
    obtain ⟨-, rfl⟩ := readField_eq_next.1 h
    exact .other _ 0 nofun nofun (.inl rfl) (takes_zero rfl rfl rfl rfl)
  | reset => exact absurd rfl hm
  | otherConsumer n => cases h
  | alterStream bs => cases h

theorem State.canArrive_takeMove (s : State) (n : Nat) : s.takeMove.canArrive n = s.canArrive n := by
  simp [State.canArrive]

theorem Takes.of_takeMove {n : Nat} {s t : State} (h : Takes n s.takeMove t) : Takes n s t := by
  obtain ⟨hav, hS, hcur, hin, hcap⟩ := h
  exact ⟨by simpa using hav, by simpa using hS, by simpa using hcur, by simpa using hin,
    by simpa using hcap⟩

theorem Gains.of_takeMove {bs : List Byte} {s t : State} (h : Gains bs s.takeMove t) :
    Gains bs s t := by
  obtain ⟨hS, hcur, hcap⟩ := h
  exact ⟨by simpa using hS, by simpa using hcur, by simpa using hcap⟩

/-- Taking the move off its schedule does not touch the stream. -/
theorem streamStep_step {s t : State} (h : step s = .next t) (hm : s.nextMove ≠ .reset) :
    StreamStep s t s.nextMove := by
  have hmove := streamStep_perform hm h
  generalize s.nextMove = m at hmove
  cases hmove with
  | push bs fits gains inPos =>
    exact .push bs (by simpa using fits) gains.of_takeMove (by simpa using inPos)
  | arrive n gains inPos =>
    rw [State.canArrive_takeMove, State.takeMove_inPos] at gains inPos
    exact .arrive n gains.of_takeMove inPos
  | other _ n hpush harrive hn takes => exact .other _ n hpush harrive hn takes.of_takeMove

theorem Gains.arr {bs : List Byte} {s t : State} (h : Gains bs s t) :
    t.arr = s.arr + bs.length := by
  rw [State.arr, State.arr, h.S, h.cur, List.length_append, Nat.add_assoc]

theorem Takes.arr {n : Nat} {s t : State} (h : Takes n s t) : t.arr = s.arr := by
  have hav := h.available
  rw [State.arr, State.arr, h.S, h.cur, List.length_drop]
  omega

/-- Settles O42: each kind of move by what it does to the stream; the bytes taken are the stream's first. -/
theorem streamIsFifo : Obligations.StreamIsFifo := by
  intro s t ht hm
  have h := streamStep_step ht hm
  generalize s.nextMove = m at h
  cases h with
  | push bs _ gains _ =>
    refine ⟨?_, nofun, fun hpush => absurd rfl (hpush bs)⟩
    rintro _ ⟨⟩
    exact ⟨gains.S, gains.cur, gains.arr⟩
  | arrive n gains _ =>
    refine ⟨nofun, ?_, fun _ harrive => absurd rfl (harrive n)⟩
    rintro _ ⟨⟩
    exact ⟨_, s.canArrive_le n, gains.S, gains.cur, by simpa using gains.arr⟩
  | other _ n hpush harrive hn takes =>
    refine ⟨fun bs hb => absurd hb (hpush bs), fun k hk => absurd hk (harrive k), fun _ _ => ?_⟩
    have hlen : (s.S.take n).length = n := List.length_take_of_le takes.available
    refine ⟨s.S.take n, ?_, ?_, takes.arr, ?_⟩
    · rw [takes.S, List.take_append_drop]
    · rw [takes.cur, hlen]
    · rwa [hlen]

/-- What the invariant asks of the capacity is kept: a push is refused past it, an arrival stops at it (20_memory.md R31). -/
theorem StreamStep.within_capacity {s t : State} {m : Stmt} (h : StreamStep s t m)
    (hs : withinCap s.cap s.S.length = true) : withinCap t.cap t.S.length = true := by
  cases h with
  | push bs fits gains _ => rwa [gains.cap, gains.S, List.length_append]
  | arrive n gains _ =>
    rw [gains.cap, gains.S, List.length_append, inSlice_length]
    exact s.canArrive_within_cap hs n
  | other _ n _ _ _ takes =>
    rw [takes.cap, takes.S]
    exact withinCap_mono hs (by simp)

/-! ### The stream as a slice of In -/

/-- What arrives is the slice that follows the one in the stream. -/
theorem FromIn.of_gains {s t : State} {m : Nat} (h : FromIn s) (hg : Gains (inSlice s.inPos m) s t)
    (hin : t.inPos = s.inPos + m)
    (hw : withinCap Config.lenIn t.inPos = true) : FromIn t := by
  obtain ⟨harr, hslice, -⟩ := h
  have hlen : t.S.length = s.S.length + m := by rw [hg.S, List.length_append, inSlice_length]
  refine ⟨by rw [hg.cur, hlen, hin]; omega, ?_, hw⟩
  have hstart : t.inPos - t.S.length = s.inPos - s.S.length := by omega
  have hend : s.inPos - s.S.length + s.S.length = s.inPos := by omega
  rw [hstart, hlen, inSlice_add, hend, ← hslice, hg.S]

/-- What is left after bytes were taken is the end of the slice. -/
theorem FromIn.of_takes {s t : State} {n : Nat} (h : FromIn s) (ht : Takes n s t) : FromIn t := by
  obtain ⟨harr, hslice, hw⟩ := h
  have hav := ht.available
  have hlen : t.S.length = s.S.length - n := by rw [ht.S, List.length_drop]
  refine ⟨by rw [ht.cur, hlen, ht.inPos]; omega, ?_, ht.inPos ▸ hw⟩
  have hstart : t.inPos - t.S.length = s.inPos - s.S.length + n := by rw [ht.inPos]; omega
  rw [hstart, hlen, ← inSlice_drop, ← hslice, ht.S]

theorem fromIn_reset : FromIn State.reset := by
  have hlen : State.reset.S.length = arrivedAtReset := inSlice_length 0 arrivedAtReset
  refine ⟨?_, ?_, ?_⟩
  · rw [hlen]
    exact (Nat.zero_add _).le
  · rw [hlen]
    show inSlice 0 arrivedAtReset = inSlice (arrivedAtReset - arrivedAtReset) arrivedAtReset
    rw [Nat.sub_self]
  · exact withinCap_mono (withinCap_atMost _ _) (atMost_le _ _)

theorem step_reset_eq_next {s t : State} (hm : s.nextMove = .reset) (h : step s = .next t) :
    s.phase = none ∧ s.takeMove.resetBetweenTicks = t := by
  rw [step_eq, hm] at h
  simpa using resetStep_eq_next.1 h

/-- A reset counts the arrivals afresh and leaves the stream and the position in `In` (70_reset_and_hazards.md R130). -/
theorem FromIn.resetBetweenTicks {s : State} (h : FromIn s) : FromIn s.takeMove.resetBetweenTicks := by
  obtain ⟨harr, hslice, hw⟩ := h
  have hS : s.takeMove.resetBetweenTicks.S = s.S := s.takeMove_S
  have hin : s.takeMove.resetBetweenTicks.inPos = s.inPos := s.takeMove_inPos
  refine ⟨?_, ?_, by rwa [hin]⟩
  · rw [hS, hin]
    show 0 + s.S.length ≤ s.inPos
    omega
  · rw [hS, hin]
    exact hslice

/-- Settles O58: an arrival lengthens the slice at its end, every other move but a push shortens it at its start, and a reset leaves
it. -/
theorem streamIsSliceOfInput : Obligations.StreamIsSliceOfInput := by
  refine ⟨fromIn_reset, ?_, fun s t hs ht hpush => ?_⟩
  · rw [State.arr]
    exact (inSlice_length 0 arrivedAtReset).symm.trans (Nat.zero_add _).symm
  · by_cases hm : s.nextMove = .reset
    · obtain ⟨-, rfl⟩ := step_reset_eq_next hm ht
      exact ⟨hs.resetBetweenTicks, fun hne => absurd hm hne⟩
    · have h := streamStep_step ht hm
      generalize s.nextMove = m at h hpush
      cases h with
      | push bs => exact absurd rfl (hpush bs)
      | arrive n gains inPos =>
        refine ⟨hs.of_gains gains inPos ?_, fun _ => ?_⟩
        · rw [inPos]
          exact s.canArrive_within_lenIn hs.within n
        · rw [inPos, gains.arr, inSlice_length]
          omega
      | other _ n _ _ _ takes =>
        exact ⟨hs.of_takes takes, fun _ => by rw [takes.inPos, takes.arr]⟩

end Sys2Proof.Machine

/-! The invariant of the machine: each of its four parts is kept by every move (10_state.md R13, R19, R20, 20_memory.md R31,
42_capture_checksum.md R95). -/

namespace Sys2Proof.Machine

/-! ### The outcome -/

theorem KeepsOutcome.outcomeInv {s t : State} (h : KeepsOutcome s t) (hs : OutcomeInv s) :
    OutcomeInv t := by
  unfold OutcomeInv at hs ⊢
  rwa [h.cause, h.result, h.published]

theorem OutcomeStep.outcomeInv {s t : State} (h : OutcomeStep s t) (hs : OutcomeInv s) :
    OutcomeInv t := by
  cases h with
  | kept k => exact k.outcomeInv hs
  | failed c hc cause result =>
    unfold OutcomeInv
    rw [cause]
    cases c with
    | idle | resync | wait | reject => exact result
    | accept => exact absurd rfl hc
  | accepted cause result _ published =>
    unfold OutcomeInv
    rw [cause]
    exact ⟨result, published⟩

/-! ### The tick in progress -/

/-- The tick in progress and its transients stay as they are, and the stream at most grows at its tail. -/
structure SameTick (s t : State) : Prop where
  phase : t.phase = s.phase
  F : t.F = s.F
  sum : t.sum = s.sum
  C : t.C = s.C
  reply : t.reply = s.reply
  S : ∃ bs, t.S = s.S ++ bs

theorem sameTick_append (s : State) (bs : List Byte) : SameTick s (s.append bs) :=
  ⟨rfl, rfl, rfl, rfl, rfl, bs, rfl⟩

theorem sameTick_deliver (s : State) (m : Nat) : SameTick s (s.deliver m) :=
  ⟨rfl, rfl, rfl, rfl, rfl, _, rfl⟩

theorem sameTick_takeMove (s : State) : SameTick s s.takeMove :=
  ⟨by simp, by simp, by simp, by simp, by simp, [], by simp⟩

/-- What a tick knows of the stream it knows of the bytes at its head, so that an arrival does not change it
(20_memory.md R39). -/
theorem SameTick.phaseInv {s t : State} (h : SameTick s t) (hs : PhaseInv s) : PhaseInv t := by
  obtain ⟨hphase, hF, hsum, hC, hreply, bs, hS⟩ := h
  unfold PhaseInv at hs ⊢
  rw [hphase, hF, hsum, hC, hreply, hS]
  generalize s.phase = phase at hs
  cases phase with
  | none => exact hs
  | some p =>
    cases p with
    | peek =>
      obtain ⟨hF, hsum, hC, hne⟩ := hs
      exact ⟨hF, hsum, hC, List.append_ne_nil_of_left_ne_nil hne bs⟩
    | pop =>
      obtain ⟨hF, hsum, hC, b, rest, hcons, hb⟩ := hs
      exact ⟨hF, hsum, hC, b, rest ++ bs, by rw [hcons]; rfl, hb⟩
    | count2 =>
      obtain ⟨hF, hsum, hC, hhead⟩ := hs
      exact ⟨hF, hsum, hC, by simp [hhead]⟩
    | capture =>
      obtain ⟨hF, hsum, hC, hhead, hlen⟩ := hs
      exact ⟨hF, hsum, hC, by simp [hhead], by rw [List.length_append]; omega⟩
    | count1 | sum | unpack | compare | publish => exact hs

theorem phaseInv_of_discarded {s : State} (hp : s.phase = none) (hF : s.F = none)
    (hsum : s.sum = none) (hC : s.C = none) (hreply : s.reply = none) : PhaseInv s := by
  unfold PhaseInv
  rw [hp]
  exact ⟨hF, hsum, hC, hreply⟩

/-- Between ticks the transients hold nothing (10_state.md R19, R20). -/
theorem PhaseInv.discarded {s : State} (h : PhaseInv s) (hp : s.phase = none) :
    s.F = none ∧ s.sum = none ∧ s.C = none ∧ s.reply = none := by
  unfold PhaseInv at h
  rwa [hp] at h

theorem PhaseInv.effectOf {s : State} (h : PhaseInv s) (hp : s.phase = none) (c : Cause) :
    PhaseInv (s.effectOf c) := by
  obtain ⟨hF, hsum, hC, hreply⟩ := h.discarded hp
  cases c with
  | idle | resync | wait => exact phaseInv_of_discarded hp hF hsum hC hreply
  | reject | accept => exact phaseInv_of_discarded hp rfl rfl rfl hreply

theorem PhaseInv.goTo_count1 {s : State} (h : PhaseInv s) (hp : s.phase = none) :
    PhaseInv (s.goTo .count1) :=
  h.discarded hp

/-- A captured block is the first 32 bytes of a stream that begins with the sentinel. -/
theorem captured_take {s : List Byte} (hhead : s.head? = some 0x42#8) (hlen : 32 ≤ s.length) :
    Captured (s.take 32) := by
  refine ⟨List.length_take_of_le hlen, ?_⟩
  obtain ⟨rest, rfl⟩ := List.head?_eq_some_iff.1 hhead
  rfl

/-- The comparison answers true on a valid frame only. -/
theorem checksumHolds_of_sameSum {f : List Byte}
    (h : sameSum (frameSum f) (unpackFrame f).checksum = true) : ChecksumHolds f :=
  (frameValid_iff f).1 h

/-- An operation of a tick that goes on establishes what the next operation supposes. -/
theorem PhaseInv.goesOn {s u : State} {p q : Phase} (h : PhaseInv s) (hp : s.phase = some p)
    (hu : exec (phaseInstr p) s = .next u) (hq : GoesOn p u.reply q) : PhaseInv (u.goTo q) := by
  unfold PhaseInv at h
  rw [hp] at h
  cases p with
  | count1 =>
    obtain ⟨hF, hsum, hC, -⟩ := h
    cases (execSAvail_eq s).symm.trans hu
    cases hq with
    | nonempty hne => exact ⟨hF, hsum, hC, fun hnil => hne (by simpa using hnil)⟩
  | peek =>
    obtain ⟨hF, hsum, hC, -⟩ := h
    obtain ⟨b, rest, hS, rfl⟩ := execSPeek_eq_next.1 hu
    cases hq with
    | sentinel => exact ⟨hF, hsum, hC, congrArg List.head? hS⟩
    | notSentinel hb => exact ⟨hF, hsum, hC, b, rest, hS, fun hb' => hb (by rw [hb']; rfl)⟩
  | pop => cases hq
  | count2 =>
    obtain ⟨hF, hsum, hC, hhead⟩ := h
    cases (execSAvail_eq s).symm.trans hu
    cases hq with
    | block hlen => exact ⟨hF, hsum, hC, hhead, hlen⟩
  | capture =>
    obtain ⟨-, hsum, hC, hhead, hlen⟩ := h
    obtain ⟨-, rfl⟩ := execCapture32_eq_next.1 hu
    cases hq
    exact ⟨s.S.take 32, captured_take hhead hlen, rfl, hsum, hC⟩
  | sum =>
    obtain ⟨f, hf, hF, -, hC⟩ := h
    obtain ⟨g, ⟨hg, -⟩, rfl⟩ := execSum30_eq_next.1 hu
    cases hq
    cases hF.symm.trans hg
    exact ⟨f, hf, hF, rfl, hC⟩
  | unpack =>
    obtain ⟨f, hf, hF, hsum, -⟩ := h
    obtain ⟨g, ⟨hg, -⟩, rfl⟩ := execUnpack15_eq_next.1 hu
    cases hq
    cases hF.symm.trans hg
    exact ⟨f, hf, hF, hsum, rfl⟩
  | compare =>
    obtain ⟨f, hf, hF, hsum, hC⟩ := h
    obtain ⟨v, c, hv, hc, rfl⟩ := execCmp16_eq_next.1 hu
    cases hsum.symm.trans hv
    cases hC.symm.trans hc
    generalize hr : State.reply _ = r at hq
    cases hq
    exact ⟨f, hf, checksumHolds_of_sameSum (by simpa using hr), hF, hsum, hC⟩
  | publish => cases hq

theorem PhaseInv.of_microStep {s t : State} (h : PhaseInv s) (ht : microStep s = .next t) :
    PhaseInv t := by
  obtain ⟨-, rfl⟩ | ⟨p, u, hp, hu, rfl⟩ := microStep_eq_next.1 ht
  · exact h
  · unfold State.advance
    split
    next q hq => exact h.goesOn hp hu (afterPhase_eq_inl.1 hq)
    next c _ => exact phaseInv_of_discarded rfl rfl rfl rfl rfl

theorem PhaseInv.of_perform {m : Stmt} {s t : State} (h : PhaseInv s) (ht : perform m s = .next t) :
    PhaseInv t := by
  cases m with
  | push bs =>
    obtain ⟨-, rfl⟩ := pushBytes_eq_next.1 ht
    exact (sameTick_append s bs).phaseInv h
  | arrive n =>
    obtain rfl := arriveBytes_eq_next.1 ht
    exact (sameTick_deliver s _).phaseInv h
  | tick =>
    obtain ⟨hp, rfl⟩ := execTick_eq_next.1 ht
    rw [tickAlgorithm_eq_effectOf]
    exact h.effectOf hp _
  | start =>
    obtain ⟨hp, rfl⟩ := startTick_eq_next.1 ht
    exact h.goTo_count1 hp
  | fsd => exact h.of_microStep ht
  | read i =>
    obtain ⟨-, rfl⟩ := readField_eq_next.1 ht
    exact h
  | reset =>
    obtain ⟨-, rfl⟩ := resetStep_eq_next.1 ht
    exact phaseInv_of_discarded rfl rfl rfl rfl rfl
  | otherConsumer n => cases ht
  | alterStream bs => cases ht

/-! ### The reading -/

theorem validReading_unpackFrame {f : List Byte} (hf : Captured f) (hck : ChecksumHolds f) :
    ValidReading (unpackFrame f) :=
  ⟨f, hf, hck, readingOfFrame_unpackFrame f⟩

/-- The block that a stream under `T.ACCEPT` begins with is a valid frame. -/
theorem validReading_of_accept {s : List Byte} (h : Cause.accept.Condition s) :
    ValidReading (unpackFrame (s.take 32)) := by
  obtain ⟨hlen, hhead, hck⟩ := h
  refine validReading_unpackFrame ⟨List.length_take_of_le hlen, ?_⟩ ((checksumHolds_take s).2 hck)
  rw [frameByte_take s (by decide), hhead]

/-- What the invariant asks of `R`. -/
def ReadingInv (s : State) : Prop := s.published = true → ValidReading s.R

theorem ReadingInv.of_eq {s t : State} (h : ReadingInv s) (hR : t.R = s.R)
    (hpub : t.published = s.published) : ReadingInv t := by
  unfold ReadingInv
  rwa [hR, hpub]

theorem ReadingInv.effectOf {s : State} {c : Cause} (h : ReadingInv s) (hc : c.Condition s.S) :
    ReadingInv (s.effectOf c) := by
  cases c with
  | idle | resync | wait | reject => exact h.of_eq rfl rfl
  | accept => exact fun _ => validReading_of_accept hc

theorem ReadingInv.of_microStep {s t : State} (h : ReadingInv s) (hs : PhaseInv s)
    (ht : microStep s = .next t) : ReadingInv t := by
  obtain ⟨-, rfl⟩ | ⟨p, u, hp, hu, rfl⟩ := microStep_eq_next.1 ht
  · exact h
  · by_cases hpub : p = .publish
    · subst hpub
      unfold PhaseInv at hs
      rw [hp] at hs
      obtain ⟨f, hf, hck, -, -, hC⟩ := hs
      obtain ⟨c, hc, rfl⟩ := execPublish_eq_next.1 hu
      cases hC.symm.trans hc
      exact fun _ => validReading_unpackFrame hf hck
    · have hkeep := keepsOutcome_exec_phaseInstr hpub hu
      exact h.of_eq ((u.advance_R p).trans hkeep.R) ((u.advance_published p).trans hkeep.published)

/-- `R` takes a new value from a captured block that passed the comparison, or from a reset, which leaves nothing published. -/
theorem ReadingInv.of_perform {m : Stmt} {s t : State} (h : ReadingInv s) (hs : PhaseInv s)
    (ht : perform m s = .next t) : ReadingInv t := by
  cases m with
  | push bs =>
    obtain ⟨-, rfl⟩ := pushBytes_eq_next.1 ht
    exact h.of_eq rfl rfl
  | arrive n =>
    obtain rfl := arriveBytes_eq_next.1 ht
    exact h.of_eq rfl rfl
  | tick =>
    obtain ⟨-, rfl⟩ := execTick_eq_next.1 ht
    rw [tickAlgorithm_eq_effectOf]
    exact h.effectOf (condition_selectOp s.S)
  | start =>
    obtain ⟨-, rfl⟩ := startTick_eq_next.1 ht
    exact h.of_eq rfl rfl
  | fsd => exact h.of_microStep hs ht
  | read i =>
    obtain ⟨-, rfl⟩ := readField_eq_next.1 ht
    exact h.of_eq rfl rfl
  | reset =>
    obtain ⟨-, rfl⟩ := resetStep_eq_next.1 ht
    exact nofun
  | otherConsumer n => cases ht
  | alterStream bs => cases ht

/-! ### The four parts together -/

theorem Inv.takeMove {s : State} (h : Inv s) : Inv s.takeMove where
  capacity := by simpa using h.capacity
  reading := ReadingInv.of_eq h.reading s.takeMove_R s.takeMove_published
  outcome := (keepsOutcome_takeMove s).outcomeInv h.outcome
  phase := (sameTick_takeMove s).phaseInv h.phase

theorem Inv.resetBetweenTicks {s : State} (h : Inv s) : Inv s.resetBetweenTicks where
  capacity := h.capacity
  reading := nofun
  outcome := ⟨rfl, rfl⟩
  phase := ⟨rfl, rfl, rfl, rfl⟩

theorem Inv.of_perform {m : Stmt} {s t : State} (h : Inv s) (ht : perform m s = .next t) : Inv t := by
  by_cases hm : m = .reset
  · subst hm
    obtain ⟨-, rfl⟩ := resetStep_eq_next.1 ht
    exact h.resetBetweenTicks
  · exact ⟨(streamStep_perform hm ht).within_capacity h.capacity,
      ReadingInv.of_perform h.reading h.phase ht,
      (outcomeStep_perform hm ht).outcomeInv h.outcome, h.phase.of_perform ht⟩

/-- Settles O39: taking the move off its schedule keeps the invariant, and so does every move. -/
theorem stepKeepsInvariant : Obligations.StepKeepsInvariant :=
  fun _ _ hs ht => hs.takeMove.of_perform ht

/-- Settles O43: of what a step can do to the outcome only an accept changes `R`, and the invariant, kept by the step, says where a
published reading comes from. -/
theorem readingChangesOnlyOnSuccess : Obligations.ReadingChangesOnlyOnSuccess := by
  intro s t hs ht hm hR
  have hinv : Inv t := stepKeepsInvariant s t hs ht
  cases outcomeStep_step ht hm with
  | kept k => exact absurd k.R hR
  | failed _ _ _ _ _ hkept => exact absurd hkept hR
  | accepted cause result phase published =>
    exact ⟨phase, result, cause, published, hinv.reading published⟩

/-- Settles O38: the bytes that have arrived at reset are within the capacity, and the rest holds nothing. -/
theorem resetHasInvariant : Obligations.ResetHasInvariant where
  capacity := by
    have hlen : State.reset.S.length = arrivedAtReset := inSlice_length 0 arrivedAtReset
    rw [hlen]
    exact withinCap_atMost _ _
  reading := nofun
  outcome := ⟨rfl, rfl⟩
  phase := ⟨rfl, rfl, rfl, rfl⟩

/-! ### Through a port binding -/

theorem PortBinding.inv_clock (b : PortBinding) {x : b.Signals} (h : Inv (b.view x)) :
    Inv (b.view (b.clock x)) := by
  obtain hidle | hstep := b.refines x
  · rwa [hidle]
  · exact stepKeepsInvariant _ _ h hstep

/-- Settles O59: a clock cycle shows nothing new or a step of the machine, and the machine's own statements say the rest. -/
theorem portBindingKeepsInvariant : Obligations.PortBindingKeepsInvariant := by
  refine fun b x hx => ⟨fun n => ?_, fun hR hm => ?_⟩
  · induction n with
    | zero => exact hx
    | succ n ih =>
      rw [Function.iterate_succ_apply']
      exact b.inv_clock ih
  · obtain hidle | hstep := b.refines x
    · exact absurd (congrArg State.R hidle) hR
    · obtain ⟨-, hresult, -, hpublished, -⟩ :=
        readingChangesOnlyOnSuccess _ _ hx hstep hm hR
      exact ⟨hresult, hpublished⟩

end Sys2Proof.Machine

/-! What stops the machine: a scenario move outside the contract and nothing else (60_exceptions.md R110, R121). -/

namespace Sys2Proof.Machine

/-- One step with a scenario statement left. -/
theorem step_of_schedule {s : State} {m : Stmt} {rest : List Stmt} (h : s.schedule = m :: rest) :
    step s = perform m { s with schedule := rest } := by
  obtain ⟨hm, htake⟩ := State.nextMove_cons h
  rw [step_eq, hm, htake]

/-! ### Refusals -/

theorem execTick_of_phase {s : State} (hp : s.phase ≠ none) :
    execTick s = .refused .overlappingTick := by
  obtain ⟨p, hp⟩ := Option.ne_none_iff_exists'.1 hp
  simp [execTick, hp]

theorem startTick_of_phase {s : State} (hp : s.phase ≠ none) :
    startTick s = .refused .overlappingTick := by
  obtain ⟨p, hp⟩ := Option.ne_none_iff_exists'.1 hp
  simp [startTick, hp]

theorem readField_of_phase {s : State} (hp : s.phase ≠ none) (i : Fin 15) :
    readField i s = .refused .readDuringTick := by
  obtain ⟨p, hp⟩ := Option.ne_none_iff_exists'.1 hp
  simp [readField, hp]

theorem resetStep_of_phase {s : State} (hp : s.phase ≠ none) :
    resetStep s = .refused .resetDuringTick := by
  obtain ⟨p, hp⟩ := Option.ne_none_iff_exists'.1 hp
  simp [resetStep, hp]

theorem exec_tickInstr_of_phase {s : State} (hp : s.phase ≠ none) (c : Cause) :
    exec (tickInstr c) s = .refused .overlappingTick := by
  obtain ⟨p, hp⟩ := Option.ne_none_iff_exists'.1 hp
  simp [exec_tickInstr_eq, State.runSelected, hp]

theorem State.frame_of_none {s : State} (h : s.F = none) : s.frame = none := by
  simp [State.frame, h]

theorem State.frame_of_length_ne {s : State} {f : List Byte} (h : s.F = some f)
    (hf : f.length ≠ 32) : s.frame = none := by
  simp [State.frame, h, hf, Config.frameLen]

theorem execSum30_of_frame_none {s : State} (h : s.frame = none) :
    execSum30 s = .refused .noFrame := by
  simp [execSum30, h]

theorem execUnpack15_of_frame_none {s : State} (h : s.frame = none) :
    execUnpack15 s = .refused .noFrame := by
  simp [execUnpack15, h]

/-- Settles O21: inside a tick every tick is refused as overlapping, and between ticks one that is not selected by name. -/
theorem tickOperationsRefusedElsewhere : Obligations.TickOperationsRefusedElsewhere := by
  refine fun s c => ⟨fun hp => ⟨exec_tickInstr_of_phase hp c, execTick_of_phase hp⟩,
    fun hp hc => ?_⟩
  rw [exec_tickInstr_eq, State.runSelected_of_other hp hc]

/-- Settles O55: each internal step looks for its input first. -/
theorem internalStepsWithoutInputAreRefused : Obligations.InternalStepsWithoutInputAreRefused := by
  intro s
  refine ⟨fun hlen => ?_, fun hF => ?_, fun f hF hf => ?_, fun hsum => ?_, fun v hsum hC => ?_,
    fun hC => ?_⟩
  · exact if_neg (Nat.not_le_of_lt hlen)
  · have hframe := State.frame_of_none hF
    exact ⟨execSum30_of_frame_none hframe, execUnpack15_of_frame_none hframe⟩
  · have hframe := State.frame_of_length_ne hF hf
    exact ⟨execSum30_of_frame_none hframe, execUnpack15_of_frame_none hframe⟩
  · simp [exec, execCmp16, hsum]
  · simp [exec, execCmp16, hsum, hC]
  · simp [exec, execPublish, hC]

/-! ### Progress -/

/-- A tick in progress never comes to a call that is refused: what it knows is the input of its next operation. -/
theorem PhaseInv.exec_phaseInstr {s : State} {p : Phase} (h : PhaseInv s) (hp : s.phase = some p) :
    ∃ u, exec (phaseInstr p) s = .next u := by
  unfold PhaseInv at h
  rw [hp] at h
  cases p with
  | count1 | count2 => exact ⟨_, execSAvail_eq s⟩
  | peek =>
    obtain ⟨-, -, -, hne⟩ := h
    obtain ⟨b, rest, hS⟩ := List.exists_cons_of_ne_nil hne
    exact ⟨_, execSPeek_of_cons hS⟩
  | pop =>
    obtain ⟨-, -, -, b, rest, hS, -⟩ := h
    exact ⟨_, execSPop1_eq_next.2 ⟨by simp [hS], rfl⟩⟩
  | capture =>
    obtain ⟨-, -, -, -, hlen⟩ := h
    exact ⟨_, execCapture32_eq_next.2 ⟨hlen, rfl⟩⟩
  | sum =>
    obtain ⟨f, hf, hF, -, -⟩ := h
    exact ⟨_, execSum30_eq_next.2 ⟨f, ⟨hF, hf.1⟩, rfl⟩⟩
  | unpack =>
    obtain ⟨f, hf, hF, -, -⟩ := h
    exact ⟨_, execUnpack15_eq_next.2 ⟨f, ⟨hF, hf.1⟩, rfl⟩⟩
  | compare =>
    obtain ⟨f, -, -, hsum, hC⟩ := h
    exact ⟨_, execCmp16_eq_next.2 ⟨_, _, hsum, hC, rfl⟩⟩
  | publish =>
    obtain ⟨f, -, -, -, -, hC⟩ := h
    exact ⟨_, execPublish_eq_next.2 ⟨_, hC, rfl⟩⟩

theorem PhaseInv.microStep_answers {s : State} (h : PhaseInv s) :
    ∃ t, microStep s = .next t := by
  cases hp : s.phase with
  | none => exact ⟨s, microStep_eq_next.2 (.inl ⟨hp, rfl⟩)⟩
  | some p =>
    obtain ⟨u, hu⟩ := h.exec_phaseInstr hp
    exact ⟨_, microStep_eq_next.2 (.inr ⟨p, u, hp, hu, rfl⟩)⟩

theorem PhaseInv.perform_answers {m : Stmt} {s : State} (h : PhaseInv s) (hm : InContract m s) :
    ∃ t, perform m s = .next t := by
  cases m with
  | push bs => exact ⟨_, pushBytes_eq_next.2 ⟨hm, rfl⟩⟩
  | arrive n => exact ⟨_, rfl⟩
  | tick => exact ⟨_, execTick_eq_next.2 ⟨hm, rfl⟩⟩
  | start => exact ⟨_, startTick_eq_next.2 ⟨hm, rfl⟩⟩
  | fsd => exact h.microStep_answers
  | read i => exact ⟨_, readField_eq_next.2 ⟨hm, rfl⟩⟩
  | reset => exact ⟨_, resetStep_eq_next.2 ⟨hm, rfl⟩⟩
  | otherConsumer n => exact hm.elim
  | alterStream bs => exact hm.elim

theorem inContract_takeMove (m : Stmt) (s : State) : InContract m s.takeMove ↔ InContract m s := by
  cases m <;> simp [InContract]

/-- A move of the parameter `Schedule` comes between ticks, and the FSD's own move is always allowed. -/
theorem State.inContract_nextMove {s : State}
    (h : ∀ m rest, s.schedule = m :: rest → InContract m s) : InContract s.nextMove s := by
  cases hs : s.schedule with
  | cons m rest =>
    rw [(State.nextMove_cons hs).1]
    exact h m rest hs
  | nil =>
    by_cases hp : s.phase = none
    · rw [(State.nextMove_none hs hp).1]
      cases Config.schedule s.turn with
      | arrive n => trivial
      | tick | read i => exact hp
    · rw [(State.nextMove_phase hs hp).1]
      trivial

/-- Settles O40: a move within the contract answers, and without a scenario the next move is within it. -/
theorem onlyOutOfContractMovesStop : Obligations.OnlyOutOfContractMovesStop := by
  intro s hs hm
  refine hs.takeMove.phase.perform_answers ?_
  rw [inContract_takeMove]
  exact State.inContract_nextMove hm

/-- Settles O41: each refusal by its own name, and that nothing else stops the machine from O40. -/
theorem outOfContractIsRefused : Obligations.OutOfContractIsRefused := by
  refine ⟨fun s rest hp => ⟨fun h => ?_, fun h => ?_, fun i h => ?_⟩, fun s n rest h => ?_,
    fun s bs rest h => ?_, fun s h => ⟨execSPeek_of_nil h, execSPop1_of_nil h⟩,
    fun s n h => execSReadn_of_lt h, fun s hs h => ?_⟩
  · exact (step_of_schedule h).trans (execTick_of_phase hp)
  · exact (step_of_schedule h).trans (startTick_of_phase hp)
  · exact (step_of_schedule h).trans (readField_of_phase (s := { s with schedule := rest }) hp i)
  · exact step_of_schedule h
  · exact step_of_schedule h
  · refine onlyOutOfContractMovesStop s hs fun m rest hcons => ?_
    cases h.symm.trans hcons

/-! ### The outcome of the last tick -/

theorem microStep_phase_ne_none {s t : State} (h : microStep s = .next t)
    (ho : t.result ≠ s.result ∨ t.cause ≠ s.cause) : s.phase ≠ none := by
  obtain ⟨-, rfl⟩ | ⟨p, u, hp, -, -⟩ := microStep_eq_next.1 h
  · simp at ho
  · simp [hp]

/-- Of the moves but a reset only a tick and the FSD's own move write `result` and `cause`. -/
theorem perform_of_outcome_ne {m : Stmt} {s t : State} (hm : m ≠ .reset)
    (h : perform m s = .next t) (ho : t.result ≠ s.result ∨ t.cause ≠ s.cause) :
    s.phase = none ∧ m = .tick ∨ s.phase ≠ none ∧ m = .fsd := by
  cases m with
  | push bs =>
    obtain ⟨-, rfl⟩ := pushBytes_eq_next.1 h
    simp at ho
  | arrive n =>
    obtain rfl := arriveBytes_eq_next.1 h
    simp at ho
  | tick => exact .inl ⟨(execTick_eq_next.1 h).1, rfl⟩
  | start =>
    obtain ⟨-, rfl⟩ := startTick_eq_next.1 h
    simp at ho
  | fsd => exact .inr ⟨microStep_phase_ne_none h ho, rfl⟩
  | read i =>
    obtain ⟨-, rfl⟩ := readField_eq_next.1 h
    simp at ho
  | reset => exact absurd rfl hm
  | otherConsumer n => cases h
  | alterStream bs => cases h

/-- A step that leaves the outcome changed, or a tick ended, leaves a cause with its result. -/
theorem OutcomeStep.cases_kept {s t : State} (h : OutcomeStep s t) :
    KeepsOutcome s t ∨ t.phase = none ∧ ∃ c, t.cause = some c ∧ t.result = c.result := by
  cases h with
  | kept k => exact .inl k
  | failed c _ cause result phase => exact .inr ⟨phase, c, cause, result⟩
  | accepted cause result phase => exact .inr ⟨phase, .accept, cause, result⟩

/-- Settles O56: a step keeps the outcome, or ends a tick with a cause and its result; only a tick and the FSD's own move do the
latter. -/
theorem outcomeChangesOnlyAtTickEnd : Obligations.OutcomeChangesOnlyAtTickEnd := by
  intro s t ht hm
  obtain hkept | ⟨hphase, hcause⟩ := (outcomeStep_step ht hm).cases_kept
  · refine ⟨fun ho => ?_, fun _ => ⟨hkept.result, hkept.cause⟩,
      fun hs htick => absurd (hkept.phase htick) hs⟩
    simp [hkept.result, hkept.cause] at ho
  · refine ⟨fun ho => ⟨hphase, hcause, ?_⟩, fun hne => absurd hphase hne, fun _ _ => hcause⟩
    simpa using perform_of_outcome_ne hm ht (by simpa using ho)

end Sys2Proof.Machine

/-! The moves of the source and of the host from a scenario (20_memory.md R31, 10_state.md R12, 70_reset_and_hazards.md R130, R132). -/

namespace Sys2Proof.Machine

/-- Settles O49: the push by its lemma, and the refusal past the capacity. -/
theorem pushAppendsAtTail : Obligations.PushAppendsAtTail := by
  intro s bs rest h
  rw [step_of_schedule h]
  refine ⟨fun hcap => ?_, fun c hcap hle => ?_, fun c hcap hlt => ?_⟩
  · exact pushBytes_eq_next.2 ⟨by simp [hcap, withinCap], rfl⟩
  · exact pushBytes_eq_next.2 ⟨by simp [hcap, withinCap, hle], rfl⟩
  · exact if_neg (by simp [hcap, withinCap, hlt])

/-- Settles O50: a read is of the reading, and nothing else of the state is written. -/
theorem hostReadsRegister : Obligations.HostReadsRegister := by
  intro s i rest h hp
  rw [step_of_schedule h]
  exact readField_eq_next.2 ⟨hp, rfl⟩

/-- Settles O51: the fields of the state after reset. -/
theorem resetLeaves : Obligations.ResetLeaves :=
  ⟨rfl, rfl, rfl, rfl, rfl, rfl, rfl, rfl⟩

/-- Settles O52: a reset between ticks writes the FSD's own fields alone. -/
theorem resetBetweenTicksKeepsStream : Obligations.ResetBetweenTicksKeepsStream := by
  intro s rest h
  rw [step_of_schedule h]
  refine ⟨fun hp => ⟨_, resetStep_eq_next.2 ⟨hp, rfl⟩, ?_⟩, fun hp => resetStep_of_phase hp⟩
  exact ⟨rfl, rfl, rfl, rfl, rfl, rfl, rfl, rfl, rfl, rfl, rfl⟩

/-- Settles O53: a start and the FSD's own move, inside a tick and outside. -/
theorem fsdActsOnlyInsideTicks : Obligations.FsdActsOnlyInsideTicks := by
  refine fun s rest => ⟨fun hp h => ?_, fun hp h => ?_, fun hp h => ?_⟩ <;>
    rw [step_of_schedule h]
  · exact startTick_eq_next.2 ⟨hp, rfl⟩
  · exact startTick_of_phase hp
  · exact microStep_eq_next.2 (.inl ⟨hp, rfl⟩)

theorem Cause.result_eq_success {c : Cause} : c.result = .success ↔ c = .accept := by
  cases c <;> decide

/-- Settles O54: the codes as defined; of the five causes one has the result `SUCCESS`. -/
theorem outcomeCodes : Obligations.OutcomeCodes :=
  ⟨rfl, rfl, rfl, rfl, rfl, rfl, rfl, fun _ => Cause.result_eq_success⟩

/-- An arrival cut short has met its bound: one byte more would pass it. -/
theorem withinCap_of_atMost_lt {b : Option Nat} {k n : Nat} (h : atMost (b.map (· - k)) n < n) :
    withinCap b (k + atMost (b.map (· - k)) n + 1) = false := by
  cases b with
  | none => exact absurd h (Nat.lt_irrefl n)
  | some c =>
    have hmin : atMost ((some c).map (· - k)) n = min n (c - k) := rfl
    rw [hmin] at h ⊢
    simp only [withinCap, decide_eq_false_iff_not]
    omega

/-- An arrival takes less than it asks for only where `CAP` or `len(In)` is met (20_memory.md R31). -/
theorem State.canArrive_lt {s : State} {n : Nat} (h : s.canArrive n < n) :
    withinCap s.cap (s.S.length + s.canArrive n + 1) = false ∨
      withinCap Config.lenIn (s.inPos + s.canArrive n + 1) = false := by
  unfold State.canArrive at h ⊢
  generalize hin : atMost (Config.lenIn.map (· - s.inPos)) n = k at h ⊢
  obtain hlt | hge := Nat.lt_or_ge (atMost (s.cap.map (· - s.S.length)) k) k
  · exact .inl (withinCap_of_atMost_lt hlt)
  · have hk : atMost (s.cap.map (· - s.S.length)) k = k := le_antisymm (atMost_le _ _) hge
    rw [hk] at h ⊢
    subst hin
    exact .inr (withinCap_of_atMost_lt h)

/-- Settles O57: the arrival takes the largest number that both bounds allow. -/
theorem arrivalDeliversInput : Obligations.ArrivalDeliversInput := by
  intro s n rest h
  refine ⟨s.canArrive n, s.canArrive_le n, step_of_schedule h, fun hcap => ?_, fun hin => ?_,
    State.canArrive_lt⟩
  · exact State.canArrive_within_cap hcap n
  · exact State.canArrive_within_lenIn hin n

end Sys2Proof.Machine

/-! The tick as a function of its stream (41_tick_sync.md R80, R81, 60_exceptions.md R114): its outcome is that of the operation the
stream selects. -/

namespace Sys2Proof.Machine

theorem exec_tick_eq {s : State} (hp : s.phase = none) :
    exec .tick s = .next (s.effectOf (selectOp s.S)) :=
  exec_tick_of_condition hp (condition_selectOp s.S)

/-- Only `T.ACCEPT` writes `R` and `published` (60_exceptions.md R115). -/
theorem State.effectOf_reading_of_ne {c : Cause} (hc : c ≠ .accept) (s : State) :
    (s.effectOf c).R = s.R ∧ (s.effectOf c).published = s.published := by
  cases c with
  | idle | resync | wait | reject => exact ⟨rfl, rfl⟩
  | accept => exact absurd rfl hc

theorem State.effectOf_accept_R (s : State) :
    (s.effectOf .accept).R = unpackFrame (s.S.take Config.frameLen) := rfl

theorem Cause.consumes_eq_one {c : Cause} : c.consumes = 1 ↔ c = .resync := by
  cases c <;> decide

/-- Thirty bytes do not reach 65536, so the checksum equation is one of plain sums (42_capture_checksum.md R93). -/
theorem checksumHolds_iff (s : List Byte) : ChecksumHolds s ↔ byteSum s = fieldValue s 14 := by
  have hle := byteSum_le s
  rw [ChecksumHolds, Nat.mod_eq_of_lt (by omega)]

/-- Settles O9: the cause is the operation selected, and the selection is the chain of conditions. -/
theorem oneCauseByPriority : Obligations.OneCauseByPriority := by
  refine fun s hp => ⟨_, exec_tick_eq hp, ?_⟩
  rw [State.effectOf_cause, selectOp_eq_conditions]

/-- Settles O10: the result is `SUCCESS` where the stream selects `T.ACCEPT`, the row of a valid frame. -/
theorem successExactlyOnValidFrame : Obligations.SuccessExactlyOnValidFrame := by
  refine fun s hp => ⟨_, exec_tick_eq hp, ?_⟩
  rw [State.effectOf_result, Cause.result_eq_success, selectOp_eq_iff, ← checksumHolds_iff]
  rfl

/-- Settles O11: both states perform the operation that their common stream selects, and its effect on stream, outcome and reading
does not look at the rest. -/
theorem tickDependsOnStreamOnly : Obligations.TickDependsOnStreamOnly := by
  intro s t hs ht hS
  refine ⟨_, _, exec_tick_eq hs, exec_tick_eq ht, ?_⟩
  rw [← hS]
  generalize selectOp s.S = c
  refine ⟨by simp [hS], by simp, by simp, by simp; omega, fun hsucc => ?_, fun hnone => ?_⟩
  · rw [State.effectOf_result, Cause.result_eq_success] at hsucc
    subst hsucc
    rw [State.effectOf_accept_R, State.effectOf_accept_R, hS]
    exact ⟨rfl, rfl, rfl⟩
  · have hc : c ≠ .accept := by
      rintro rfl
      cases hnone
    obtain ⟨hsR, hsP⟩ := s.effectOf_reading_of_ne hc
    obtain ⟨htR, htP⟩ := t.effectOf_reading_of_ne hc
    exact ⟨hsR, htR, hsP, htP⟩

/-- Settles O12: the algorithm leaves the effect of the selected row, and both are refused while a tick is in progress. -/
theorem tickIsSelectedOperation : Obligations.TickIsSelectedOperation := by
  intro s
  by_cases hp : s.phase = none
  · rw [decode, exec_tickInstr_eq, State.runSelected_of_selected hp rfl, exec_tick_eq hp]
  · rw [decode, exec_tickInstr_of_phase hp]
    exact execTick_of_phase hp

/-- Fewer than 32 bytes select one of the three operations that take no block. -/
theorem Cause.Condition.of_short {c : Cause} {s : List Byte} (h : c.Condition s)
    (hlen : s.length < 32) : c = .idle ∨ c = .resync ∨ c = .wait := by
  have hle := h.consumes_le
  cases c with
  | idle | resync | wait => decide
  | reject | accept => exact absurd hle (Nat.not_le_of_lt hlen)

/-- Settles O13: of the three operations a short stream can select only `T.RESYNC` consumes, and that the head byte. -/
theorem shortStreamConsumesAtMostOne : Obligations.ShortStreamConsumesAtMostOne := by
  intro s hp hlen
  refine ⟨_, exec_tick_eq hp, ?_⟩
  have hcur : (s.effectOf (selectOp s.S)).cur = s.cur + 1 ↔ Cause.resync.Condition s.S := by
    rw [← selectOp_eq_iff, ← Cause.consumes_eq_one, State.effectOf_cur]
    omega
  have hcond := condition_selectOp s.S
  generalize selectOp s.S = c at hcur hcond
  suffices h : c ≠ .accept ∧ c.result = .noData ∧
      ((s.effectOf c).S = s.S ∧ (s.effectOf c).cur = s.cur ∨
        (∃ b, s.S = b :: (s.effectOf c).S) ∧ (s.effectOf c).cur = s.cur + 1) by
    obtain ⟨hne, hresult, htaken⟩ := h
    obtain ⟨hR, hpub⟩ := s.effectOf_reading_of_ne hne
    exact ⟨(s.effectOf_result c).trans hresult, hR, hpub, htaken, hcur⟩
  obtain rfl | rfl | rfl := hcond.of_short hlen
  · exact ⟨nofun, rfl, .inl ⟨rfl, rfl⟩⟩
  · obtain ⟨b, rest, hS⟩ := List.exists_cons_of_length_pos hcond.1
    refine ⟨nofun, rfl, .inr ⟨⟨b, ?_⟩, rfl⟩⟩
    simp [hS, Cause.consumes]
  · exact ⟨nofun, rfl, .inl ⟨rfl, rfl⟩⟩

/-- Settles O48: the invariant bounds the stream by the capacity, so that every stream is short; with the sentinel at its head none
of its bytes is consumed. -/
theorem smallSourceNeverYieldsFrame : Obligations.SmallSourceNeverYieldsFrame := by
  intro s c hs hp hcap hc
  have hlen : s.S.length ≤ c := by simpa [hcap, withinCap] using hs.capacity
  obtain ⟨t, ht, hresult, hR, hpub, htaken, hcur⟩ :=
    shortStreamConsumesAtMostOne s hp (hlen.trans_lt hc)
  refine ⟨t, ht, hresult, hR, hpub, fun hhead => ?_⟩
  obtain hkept | ⟨-, hone⟩ := htaken
  · exact hkept
  · exact absurd hhead (hcur.1 hone).2

end Sys2Proof.Machine

/-! The step and the decoder (30_encoding.md R54, R55): what a step runs, and how table words are read. -/

namespace Sys2Proof.Machine

theorem decode_wellFormed (s : List Byte) : (decode s).wellFormed = true := by
  unfold decode
  cases selectOp s <;> rfl

/-- Settles O1: a tick, from a scenario or from the parameter `Schedule`, is the operation decoded from its stream. -/
theorem stepRunsDecodedInstruction : Obligations.StepRunsDecodedInstruction := by
  refine fun s hp => ⟨decode_wellFormed s.S, fun rest h => ?_, fun h => ?_⟩
  · exact (step_of_schedule h).trans (tickIsSelectedOperation _)
  · obtain ⟨hmove, htake⟩ := State.nextMove_none h hp
    rw [step_eq, hmove, htake]
    cases Config.schedule s.turn with
    | tick => exact tickIsSelectedOperation _
    | arrive n => rfl
    | read i => exact readField_eq_next.2 ⟨hp, rfl⟩

theorem microStep_of_refused {s : State} {p : Phase} {r : Refusal} (hp : s.phase = some p)
    (h : exec (phaseInstr p) s = .refused r) : microStep s = .refused r := by
  simp [microStep, hp, h]

theorem microStep_of_next {s t : State} {p : Phase} (hp : s.phase = some p)
    (h : exec (phaseInstr p) s = .next t) : microStep s = .next (t.advance p) :=
  microStep_eq_next.2 (.inr ⟨p, t, hp, h, rfl⟩)

/-- Settles O2: inside a tick the step is the FSD's own move, with nothing scheduled or its statement scheduled. -/
theorem stepRunsTickOperation : Obligations.StepRunsTickOperation := by
  refine fun s p hp => ⟨fun h => ?_, fun rest h => ?_⟩
  · obtain ⟨hmove, htake⟩ := State.nextMove_phase h (by simp [hp])
    rw [step_eq, hmove, htake]
    exact ⟨fun t => microStep_of_next hp, fun r => microStep_of_refused hp⟩
  · rw [step_of_schedule h]
    exact ⟨fun t => microStep_of_next hp, fun r => microStep_of_refused hp⟩

/-- Settles O4: the eight words, decoded. -/
theorem sampleWordsDecode : Obligations.SampleWordsDecode := by
  unfold Obligations.SampleWordsDecode
  decide

theorem decode_sampleStream (c : Cause) : decode (sampleStream c) = tickInstr c := by
  cases c <;> decide

/-- A table word of some bits is decoded from the stream that stands for it. -/
theorem decode_of_decodeTableWord {nbits w : Nat} {i : Instr} (hbits : nbits ≠ 0)
    (h : decodeTableWord nbits w = some i) : ∃ S, tableStream nbits w = some S ∧ decode S = i := by
  unfold decodeTableWord at h
  unfold tableStream
  rw [if_neg (by simpa using hbits)] at h
  split_ifs at h ⊢ with hframe hkey
  · exact ⟨_, rfl, Option.some.inj h⟩
  · exact ⟨_, rfl, (decode_sampleStream _).trans (Option.some.inj h)⟩

theorem eq_tick_of_decodeTableWord_zero {w : Nat} {i : Instr} (h : decodeTableWord 0 w = some i) :
    i = .tick := by
  simp only [decodeTableWord, beq_self_eq_true, if_true] at h
  split at h
  · exact (Option.some.inj h).symm
  · cases h

/-- Settles O3: the placed tick is the operation decoded from the placed stream, or the entry itself. -/
theorem placedWordRuns : Obligations.PlacedWordRuns := by
  intro s nbits w i h
  have hstep : step (s.withFetchWord nbits w) =
      exec .tick { s.withFetchWord nbits w with schedule := s.schedule } := rfl
  rw [hstep]
  by_cases hbits : nbits = 0
  · subst hbits
    rw [eq_tick_of_decodeTableWord_zero h]
  · obtain ⟨S, hS, rfl⟩ := decode_of_decodeTableWord hbits h
    have hplaced : (s.withFetchWord nbits w).S = S := by simp [State.withFetchWord, hS]
    rw [tickIsSelectedOperation, hplaced]

/-- A row that has a key is a tick operation, and the key the match of its row. -/
theorem tickInstr_of_encode {i : Instr} {k : BitVec 4} (h : encode i = some k) :
    ∃ c, tickInstr c = i ∧ keyMatch c = k := by
  cases i with
  | tIdle => exact ⟨.idle, rfl, Option.some.inj h⟩
  | tResync => exact ⟨.resync, rfl, Option.some.inj h⟩
  | tWait => exact ⟨.wait, rfl, Option.some.inj h⟩
  | tReject => exact ⟨.reject, rfl, Option.some.inj h⟩
  | tAccept => exact ⟨.accept, rfl, Option.some.inj h⟩
  | tick | sAvail | sPeek | sPop1 | sReadn | capture32 | sum30 | be16 | unpack15 | cmp16 | publish =>
    cases h

theorem decodeTableWord_key (k : BitVec 4) :
    decodeTableWord 8 k.toNat = some (tickInstr (decodeKey k)) := by
  revert k
  decide

/-- The bits that a row's mask leaves free do not matter. -/
theorem decodeKey_free (c : Cause) (x : BitVec 4) :
    decodeKey (keyMatch c ||| (x &&& ~~~ keyMask c)) = c := by
  revert x
  cases c <;> decide

/-- Settles O7: the rows with a key are the tick operations, and a key decodes by its fixed bits alone. -/
theorem tickKeysDecodeToTheirRows : Obligations.TickKeysDecodeToTheirRows := by
  refine ⟨fun c => ?_, rfl, rfl, rfl, rfl, fun n => rfl, rfl, rfl, fun hi lo => rfl, rfl, rfl, rfl,
    fun i k h => ?_⟩
  · cases c <;> rfl
  · obtain ⟨c, rfl, rfl⟩ := tickInstr_of_encode h
    refine ⟨c, rfl, fun x => ⟨decodeKey_free c x, ?_⟩⟩
    rw [decodeTableWord_key, decodeKey_free]

end Sys2Proof.Machine

/-! The tick operation by operation (41_tick_sync.md R80, 20_memory.md R39, R42): with bytes arriving inside it, it ends as the tick
of one step does on the stream as it stands at its last operation. -/

namespace Sys2Proof.Machine

theorem microStep_goesOn {v u : State} {p q : Phase} (hp : v.phase = some p)
    (hu : exec (phaseInstr p) v = .next u) (hq : GoesOn p u.reply q) :
    microStep v = .next (u.goTo q) := by
  rw [microStep_of_next hp hu, State.advance, afterPhase_eq_inl.2 hq]

theorem microStep_ends {v u : State} {p : Phase} {c : Cause} (hp : v.phase = some p)
    (hu : exec (phaseInstr p) v = .next u) (hc : afterPhase p u.reply = .inr c) :
    microStep v = .next (u.completeTick c) := by
  rw [microStep_of_next hp hu, State.advance, hc]

/-- The comparison of a valid frame sends the tick to PUBLISH. -/
theorem microStep_compare_of_valid {v : State} {f : List Byte} (hp : v.phase = some .compare)
    (hsum : v.sum = some (frameSum f)) (hC : v.C = some (unpackFrame f)) (hck : ChecksumHolds f) :
    microStep v = .next ((v.answer (.bit true)).goTo .publish) := by
  have hbit : sameSum (frameSum f) (unpackFrame f).checksum = true := (frameValid_iff f).2 hck
  exact microStep_goesOn hp (execCmp16_eq_next.2 ⟨_, _, hsum, hC, by rw [hbit]⟩) .equal

/-- The comparison of any other block ends the tick. -/
theorem microStep_compare_of_invalid {v : State} {f : List Byte} (hp : v.phase = some .compare)
    (hsum : v.sum = some (frameSum f)) (hC : v.C = some (unpackFrame f)) (hck : ¬ ChecksumHolds f) :
    microStep v = .next ((v.answer (.bit false)).completeTick .reject) := by
  have hbit : sameSum (frameSum f) (unpackFrame f).checksum = false :=
    Bool.eq_false_iff.2 ((frameValid_iff f).not.2 hck)
  exact microStep_ends hp (execCmp16_eq_next.2 ⟨_, _, hsum, hC, by rw [hbit]⟩) rfl

theorem microStep_publish {v : State} {c : Reading} (hp : v.phase = some .publish)
    (hC : v.C = some c) : microStep v = .next ((v.publish c).completeTick .accept) :=
  microStep_ends hp (execPublish_eq_next.2 ⟨c, hC, rfl⟩) rfl

/-- The end of a tick in progress forgets where the tick stood and what it held. -/
theorem State.completeTick_inside {s : State} (hp : s.phase = none) (hr : s.reply = none)
    (F : Option (List Byte)) (sum : Option Half) (C : Option Reading) (phase : Option Phase)
    (reply : Option Reply) (c : Cause) :
    State.completeTick { s with F := F, sum := sum, C := C, phase := phase, reply := reply } c =
      s.discard.endTick c := by
  rw [State.completeTick, State.discard, State.discard, State.endTick, State.endTick, hp, hr]

theorem PhaseInv.discard_eq {s : State} (h : PhaseInv s) (hp : s.phase = none) : s.discard = s := by
  obtain ⟨hF, hsum, hC, -⟩ := h.discarded hp
  rw [State.discard, ← hF, ← hsum, ← hC]

/-- `TickAt s p v`: the tick in progress in `v` stands at `p`, and `s` is the state between ticks that it would have started from had
every byte that has arrived been there. Up to step 4 the stream is untouched; from step 5 on its first block `f` is captured. -/
inductive TickAt (s : State) : Phase → State → Prop
  | count1 (r : Option Reply) : TickAt s .count1 { s with phase := some .count1, reply := r }
  | peek (r : Option Reply) (hS : s.S ≠ []) :
      TickAt s .peek { s with phase := some .peek, reply := r }
  | pop (r : Option Reply) (b : Byte) (rest : List Byte) (hS : s.S = b :: rest) (hb : b ≠ 0x42#8) :
      TickAt s .pop { s with phase := some .pop, reply := r }
  | count2 (r : Option Reply) (rest : List Byte) (hS : s.S = 0x42#8 :: rest) :
      TickAt s .count2 { s with phase := some .count2, reply := r }
  | capture (r : Option Reply) (f rest : List Byte) (hf : Captured f) (hS : s.S = f ++ rest) :
      TickAt s .capture { s with phase := some .capture, reply := r }
  | sum (r : Option Reply) (f rest : List Byte) (hf : Captured f) (hS : s.S = f ++ rest) :
      TickAt s .sum
        { s with S := rest, cur := s.cur + 32, F := some f, phase := some .sum, reply := r }
  | unpack (r : Option Reply) (f rest : List Byte) (hf : Captured f) (hS : s.S = f ++ rest) :
      TickAt s .unpack
        { s with
          S := rest, cur := s.cur + 32, F := some f, sum := some (frameSum f),
          phase := some .unpack, reply := r }
  | compare (r : Option Reply) (f rest : List Byte) (hf : Captured f) (hS : s.S = f ++ rest) :
      TickAt s .compare
        { s with
          S := rest, cur := s.cur + 32, F := some f, sum := some (frameSum f),
          C := some (unpackFrame f), phase := some .compare, reply := r }
  | publish (r : Option Reply) (f rest : List Byte) (hf : Captured f) (hS : s.S = f ++ rest)
      (hck : ChecksumHolds f) :
      TickAt s .publish
        { s with
          S := rest, cur := s.cur + 32, F := some f, sum := some (frameSum f),
          C := some (unpackFrame f), phase := some .publish, reply := r }

/-- An arrival inside the tick could as well have come before it (20_memory.md R39). -/
theorem TickAt.append {s v : State} {p : Phase} (h : TickAt s p v) (bs : List Byte) :
    TickAt (s.append bs) p (v.append bs) := by
  have hblock {f rest : List Byte} (hS : s.S = f ++ rest) : (s.append bs).S = f ++ (rest ++ bs) := by
    rw [State.append_S, hS, List.append_assoc]
  cases h with
  | count1 r => exact .count1 r
  | peek r hS => exact .peek r (List.append_ne_nil_of_left_ne_nil hS bs)
  | pop r b rest hS hb => exact .pop r b (rest ++ bs) (hblock (f := [b]) hS) hb
  | count2 r rest hS => exact .count2 r (rest ++ bs) (hblock (f := [0x42#8]) hS)
  | capture r f rest hf hS => exact .capture r f (rest ++ bs) hf (hblock hS)
  | sum r f rest hf hS => exact .sum r f (rest ++ bs) hf (hblock hS)
  | unpack r f rest hf hS => exact .unpack r f (rest ++ bs) hf (hblock hS)
  | compare r f rest hf hS => exact .compare r f (rest ++ bs) hf (hblock hS)
  | publish r f rest hf hS hck => exact .publish r f (rest ++ bs) hf (hblock hS) hck

/-- The most operations a tick standing here still performs (41_tick_sync.md R85). -/
def Phase.opsLeft : Phase → Nat
  | .count1 => 8
  | .peek => 7
  | .pop => 1
  | .count2 => 6
  | .capture => 5
  | .sum => 4
  | .unpack => 3
  | .compare => 2
  | .publish => 1

/-- After an operation the tick stands at a later one, or it has ended as the tick of one step does. -/
inductive TickStep (s : State) (p : Phase) (w : State) : Prop
  | goesOn (q : Phase) (h : TickAt s q w) (less : q.opsLeft < p.opsLeft)
  | ends (hp : w.phase = none) (h : exec .tick s = .next w)

/-- A tick that ends under the condition of its cause ends as the tick of one step does. -/
theorem TickStep.of_condition {s w : State} {p : Phase} {c : Cause} (hs : s.phase = none)
    (hc : c.Condition s.S) (hw : w = s.effectOf c) : TickStep s p w := by
  subst hw
  exact .ends ((s.effectOf_phase c).trans hs) (exec_tick_of_condition hs hc)

/-- A stream that begins with the sentinel and is long enough begins with a captured block. -/
theorem exists_captured_append {rest : List Byte} (h : 32 ≤ (0x42#8 :: rest).length) :
    ∃ f tail, Captured f ∧ 0x42#8 :: rest = f ++ tail :=
  ⟨_, _, captured_take rfl h, (List.take_append_drop 32 _).symm⟩

theorem TickAt.exists_microStep {s v : State} {p : Phase} (hs : s.phase = none) (hi : PhaseInv s)
    (h : TickAt s p v) : ∃ w, microStep v = .next w ∧ TickStep s p w := by
  have hdiscard : s.discard = s := hi.discard_eq hs
  obtain ⟨-, -, -, hreply⟩ := hi.discarded hs
  cases h with
  | count1 r =>
    by_cases hS : s.S = []
    · refine ⟨_, microStep_count1_of_nil rfl hS, .of_condition (c := .idle) hs hS ?_⟩
      rw [State.completeTick_inside hs hreply, hdiscard]
      rfl
    · refine ⟨_, microStep_goesOn rfl (execSAvail_eq _) (.nonempty ?_),
        .goesOn _ (.peek _ hS) (by decide)⟩
      simpa using hS
  | peek r hS =>
    obtain ⟨b, rest, hcons⟩ := List.exists_cons_of_ne_nil hS
    have hpeek := execSPeek_of_cons (s := { s with phase := some .peek, reply := r }) hcons
    by_cases hb : b = 0x42#8
    · subst hb
      exact ⟨_, microStep_goesOn rfl hpeek .sentinel, .goesOn _ (.count2 _ rest hcons) (by decide)⟩
    · exact ⟨_, microStep_goesOn rfl hpeek (.notSentinel (by simpa using hb)),
        .goesOn _ (.pop _ b rest hcons hb) (by decide)⟩
  | pop r b rest hS hb =>
    refine ⟨_, microStep_ends rfl (execSPop1_eq_next.2 ⟨by simp [hS], rfl⟩) rfl,
      .of_condition (c := .resync) hs (hS ▸ condition_resync_cons rest hb) ?_⟩
    exact (State.completeTick_inside (s := s.consume 1) hs hreply _ _ _ _ _ _).trans
      (congrArg (fun u => (u.consume 1).endTick .resync) hdiscard)
  | count2 r rest hS =>
    by_cases hlen : 32 ≤ s.S.length
    · obtain ⟨f, tail, hf, hblock⟩ := exists_captured_append (hS ▸ hlen)
      exact ⟨_, microStep_goesOn rfl (execSAvail_eq _) (.block hlen),
        .goesOn _ (.capture _ f tail hf (hS.trans hblock)) (by decide)⟩
    · have hcond : Cause.wait.Condition s.S := hS ▸ condition_wait_cons (by rw [hS] at hlen; omega)
      refine ⟨_, microStep_ends rfl (execSAvail_eq _)
        ((afterPhase_count2_count _).trans (if_pos (Nat.lt_of_not_le hlen))),
        .of_condition hs hcond ?_⟩
      exact (State.completeTick_inside hs hreply _ _ _ _ _ _).trans
        (congrArg (State.endTick · .wait) hdiscard)
  | capture r f rest hf hS =>
    obtain ⟨hcap, -, -⟩ :=
      captureTakesThirtyTwo { s with phase := some .capture, reply := r } f rest hS hf.1
    exact ⟨_, microStep_goesOn rfl hcap .captured, .goesOn _ (.sum r f rest hf hS) (by decide)⟩
  | sum r f rest hf hS =>
    exact ⟨_, microStep_goesOn rfl (execSum30_eq_next.2 ⟨f, ⟨rfl, hf.1⟩, rfl⟩) .summed,
      .goesOn _ (.unpack r f rest hf hS) (by decide)⟩
  | unpack r f rest hf hS =>
    exact ⟨_, microStep_goesOn rfl (execUnpack15_eq_next.2 ⟨f, ⟨rfl, hf.1⟩, rfl⟩) .unpacked,
      .goesOn _ (.compare r f rest hf hS) (by decide)⟩
  | compare r f rest hf hS =>
    by_cases hck : ChecksumHolds f
    · exact ⟨_, microStep_compare_of_valid rfl rfl rfl hck,
        .goesOn _ (.publish _ f rest hf hS hck) (by decide)⟩
    · refine ⟨_, microStep_compare_of_invalid rfl rfl rfl hck,
        .of_condition (c := .reject) hs (hS ▸ condition_reject_append hf hck rest) ?_⟩
      exact (State.completeTick_inside (s := { s with S := rest, cur := s.cur + 32 })
        hs hreply _ _ _ _ _ _).trans (State.rejectEffect_of_append hS hf.1).symm
  | publish r f rest hf hS hck =>
    refine ⟨_, microStep_publish rfl rfl,
      .of_condition (c := .accept) hs (hS ▸ condition_accept_append hf hck rest) ?_⟩
    exact (State.completeTick_inside (s :=
      { s with S := rest, cur := s.cur + 32, R := unpackFrame f, published := true })
      hs hreply _ _ _ _ _ _).trans (State.acceptEffect_of_append hS hf.1).symm

/-- Appends after the tick's end stay appends. -/
theorem serialTick_of_phase_none {s : State} (hp : s.phase = none) (arrivals : List (List Byte)) :
    serialTick arrivals s = .next (s.append arrivals.flatten) := by
  induction arrivals generalizing s with
  | nil => simp [serialTick]
  | cons bs rest ih =>
    have hmicro : microStep (s.append bs) = .next (s.append bs) :=
      microStep_eq_next.2 (.inl ⟨hp, rfl⟩)
    rw [serialTick, hmicro]
    exact (ih (s := s.append bs) hp).trans (by rw [State.append_append, List.flatten_cons])

theorem PhaseInv.append {s : State} (h : PhaseInv s) (bs : List Byte) : PhaseInv (s.append bs) :=
  (sameTick_append s bs).phaseInv h

/-- Wherever a tick stands, it ends as the tick of one step with the arrivals up to its last operation before it and the others
after it. -/
theorem TickAt.linearizable {s v : State} {p : Phase} {arrivals : List (List Byte)}
    (hs : s.phase = none) (hi : PhaseInv s) (h : TickAt s p v) (hlen : p.opsLeft ≤ arrivals.length) :
    ∃ before after u, before ++ after = arrivals.flatten ∧
      exec .tick (s.append before) = .next u ∧ serialTick arrivals v = .next (u.append after) := by
  induction arrivals generalizing s v p with
  | nil => cases p <;> cases hlen
  | cons bs rest ih =>
    obtain ⟨w, hw, hstep⟩ := (h.append bs).exists_microStep (s := s.append bs) hs (hi.append bs)
    rw [serialTick, hw]
    cases hstep with
    | ends hp htick => exact ⟨bs, rest.flatten, w, rfl, htick, serialTick_of_phase_none hp rest⟩
    | goesOn q hq less =>
      have hleft : q.opsLeft ≤ rest.length := by
        rw [List.length_cons] at hlen
        omega
      obtain ⟨before, after, u, hsplit, htick, hserial⟩ :=
        ih (s := s.append bs) hs (hi.append bs) hq hleft
      refine ⟨bs ++ before, after, u, ?_, ?_, hserial⟩
      · rw [List.append_assoc, hsplit, List.flatten_cons]
      · rw [← State.append_append, htick]

/-- Settles O15: a started tick stands at its first count, and eight operations end it. -/
theorem serialTickIsLinearizable : Obligations.SerialTickIsLinearizable := by
  intro s t arrivals hs hi hlen ht
  obtain ⟨-, rfl⟩ := startTick_eq_next.1 ht
  exact (TickAt.count1 s.reply).linearizable hs hi hlen

/-- Settles O14: without arrivals nothing is left to come before or after the tick; steps 5 and 6 read the same block and write
different transients. -/
theorem algorithmStepsMakeTheTick : Obligations.AlgorithmStepsMakeTheTick := by
  refine ⟨fun s t hs hi ht => ?_, fun s a b ha hb => ?_⟩
  · obtain ⟨before, after, u, hsplit, htick, hserial⟩ :=
      serialTickIsLinearizable s t (List.replicate 8 []) hs hi le_rfl ht
    obtain ⟨rfl, rfl⟩ := List.append_eq_nil_iff.1 hsplit
    rw [hserial, State.append_nil, ← htick, State.append_nil]
  · obtain ⟨f, hf, rfl⟩ := execSum30_eq_next.1 ha
    obtain ⟨g, hg, rfl⟩ := execUnpack15_eq_next.1 hb
    cases hf.1.symm.trans hg.1
    exact ⟨s.setCandidate (unpackFrame f), execUnpack15_eq_next.2 ⟨f, hf, rfl⟩,
      execSum30_eq_next.2 ⟨f, hf, rfl⟩⟩

end Sys2Proof.Machine

/-! The checksum (42_capture_checksum.md R93, R96): the range of the sum, and which changes of a frame it notices. -/

namespace Sys2Proof.Machine

theorem exists_sentinel_cons {f : List Byte} (h : frameByte f 0 = 0x42#8) :
    ∃ tail, f = 0x42#8 :: tail := by
  cases f with
  | nil => exact absurd h (by decide)
  | cons b tail =>
    obtain rfl : b = 0x42#8 := h
    exact ⟨tail, rfl⟩

/-- The sum of a block that begins with the sentinel is 66 and the bytes at offsets 1 to 29. -/
theorem byteSum_of_head {f : List Byte} (h : frameByte f 0 = 0x42#8) :
    byteSum f = 66 + (((f.drop 1).take 29).map BitVec.toNat).sum := by
  obtain ⟨tail, rfl⟩ := exists_sentinel_cons h
  exact byteSum_eq _

theorem byteSum_bounds_of_head {f : List Byte} (h : frameByte f 0 = 0x42#8) :
    66 ≤ byteSum f ∧ byteSum f ≤ 7461 := by
  have hle := sum_toNat_le ((f.drop 1).take 29)
  have hlen := List.length_take_le 29 (f.drop 1)
  rw [byteSum_of_head h]
  omega

/-- Settles O34: thirty bytes of at most 255, of which the first is 66 in every captured block. -/
theorem sumNeverWraps : Obligations.SumNeverWraps := by
  refine ⟨fun f => ⟨byteSum_le f, frameSum_toNat_eq_byteSum f⟩,
    fun f hf => byteSum_bounds_of_head hf.2, fun s hout hacc => ?_⟩
  obtain ⟨-, hhead, hck⟩ := selectOp_eq_iff.1 hacc
  have hsum := (checksumHolds_iff s).1 hck
  obtain ⟨hmin, hmax⟩ := byteSum_bounds_of_head hhead
  omega

/-! ### One byte changed -/

theorem sum_toNat_set {l : List Byte} {k : Nat} (hk : k < l.length) (b : Byte) :
    ((l.set k b).map BitVec.toNat).sum + (frameByte l k).toNat =
      (l.map BitVec.toNat).sum + b.toNat := by
  induction l generalizing k with
  | nil => cases hk
  | cons a l ih =>
    cases k with
    | zero =>
      simp only [List.set_cons_zero, List.map_cons, List.sum_cons, frameByte, List.getD_cons_zero]
      omega
    | succ k =>
      have h := ih (Nat.lt_of_succ_lt_succ hk)
      simp only [List.set_cons_succ, List.map_cons, List.sum_cons, frameByte, List.getD_cons_succ]
        at h ⊢
      omega

/-- Below offset 30 the sum moves by the difference of the two bytes. -/
theorem byteSum_set {f : List Byte} {k : Nat} (hk : k < 30) (hlen : k < f.length) (b : Byte) :
    byteSum (f.set k b) + (frameByte f k).toNat = byteSum f + b.toNat := by
  rw [byteSum_eq, byteSum_eq, List.take_set, ← frameByte_take f hk]
  exact sum_toNat_set (by rw [List.length_take]; omega) b

/-- Bytes 30 and 31 are not summed. -/
theorem byteSum_set_of_le {k : Nat} (hk : 30 ≤ k) (f : List Byte) (b : Byte) :
    byteSum (f.set k b) = byteSum f := by
  rw [byteSum_eq, byteSum_eq, List.take_set_of_le hk]

theorem fieldValue_eq_iff {f g : List Byte} {i : Nat} :
    fieldValue f i = fieldValue g i ↔
      frameByte f (2 + 2 * i) = frameByte g (2 + 2 * i) ∧
        frameByte f (2 + 2 * i + 1) = frameByte g (2 + 2 * i + 1) := by
  rw [← frameField_toNat, ← frameField_toNat, BitVec.toNat_inj, frameField_eq_iff]

theorem fieldValue_checksum_of_drop {f g : List Byte} (h : f.drop 30 = g.drop 30) :
    fieldValue f 14 = fieldValue g 14 := by
  rw [fieldValue_eq_iff, ← frameByte_drop f 30 0, ← frameByte_drop g 30 0, ← frameByte_drop f 30 1,
    ← frameByte_drop g 30 1, h]
  exact ⟨rfl, rfl⟩

theorem captured_set {f : List Byte} {k : Nat} (hf : Captured f) (hk : 1 ≤ k) (b : Byte) :
    Captured (f.set k b) :=
  ⟨List.length_set.trans hf.1, (frameByte_set_ne (by omega) f b).trans hf.2⟩

/-- A changed byte moves the sum and not the field, or the field and not the sum. -/
theorem not_checksumHolds_set {f : List Byte} {k : Nat} {b : Byte} (hf : Captured f)
    (hck : ChecksumHolds f) (hk : k < 32) (hb : b ≠ frameByte f k) :
    ¬ ChecksumHolds (f.set k b) := by
  have hlen : k < f.length := hf.1 ▸ hk
  rw [checksumHolds_iff] at hck ⊢
  obtain hsummed | hfield := Nat.lt_or_ge k 30
  · have hkept : fieldValue (f.set k b) 14 = fieldValue f 14 :=
      fieldValue_eq_iff.2 ⟨frameByte_set_ne (by omega) f b, frameByte_set_ne (by omega) f b⟩
    have hsum := byteSum_set hsummed hlen b
    have hne : b.toNat ≠ (frameByte f k).toNat := fun h => hb (BitVec.toNat_inj.1 h)
    omega
  · rw [byteSum_set_of_le hfield, hck, fieldValue_eq_iff]
    rintro ⟨hhi, hlo⟩
    have hkept : frameByte (f.set k b) k = frameByte f k := by
      obtain rfl | rfl : k = 30 ∨ k = 31 := by omega
      · exact hhi.symm
      · exact hlo.symm
    rw [frameByte_set_same hlen] at hkept
    exact hb hkept

/-- Frames with one sum and one checksum field are valid together. -/
theorem checksumHolds_of_byteSum_eq {f g : List Byte} (hck : ChecksumHolds f)
    (hdrop : f.drop 30 = g.drop 30) (hsum : byteSum f = byteSum g) : ChecksumHolds g := by
  rw [checksumHolds_iff] at hck ⊢
  rw [← hsum, hck, fieldValue_checksum_of_drop hdrop]

/-- Settles O35: one byte changes exactly one side of the checksum equation; an order of the summed bytes, or any other bytes with
the same sum, changes neither. -/
theorem checksumCatchesOneByte : Obligations.ChecksumCatchesOneByte := by
  refine ⟨fun f k b hf hck hpos hk hb => ⟨captured_set hf hpos b, not_checksumHolds_set hf hck hk hb⟩,
    fun f rest b hf hb => ?_, fun f g hf hck hg hdrop hperm => ?_,
    fun f g _ hck _ hdrop hsum => checksumHolds_of_byteSum_eq hck hdrop hsum⟩
  · obtain ⟨tail, rfl⟩ := exists_sentinel_cons hf.2
    exact selectOp_eq_iff.2 (condition_resync_cons (tail ++ rest) hb)
  · refine checksumHolds_of_byteSum_eq hck hdrop ?_
    rw [byteSum_of_head hf.2, byteSum_of_head hg.2, (hperm.map BitVec.toNat).sum_eq]

/-- Settles O36: the second write of the swap takes back what the first added to the sum; the lane's first byte tells the two
fields apart. -/
theorem byteSwapKeepsSum : Obligations.ByteSwapKeepsSum := by
  intro f i hf hi
  have hfirst := byteSum_set (f := f) (k := 2 + 2 * i) (by omega) (by omega)
    (frameByte f (2 + 2 * i + 1))
  have hsecond := byteSum_set (f := f.set (2 + 2 * i) (frameByte f (2 + 2 * i + 1)))
    (k := 2 + 2 * i + 1) (by omega) (by rw [List.length_set]; omega) (frameByte f (2 + 2 * i))
  rw [frameByte_set_ne (by omega)] at hsecond
  refine ⟨by omega, fun hne hfield => hne ?_⟩
  have hhi := (fieldValue_eq_iff.1 hfield).1
  rw [frameByte_set_ne (by omega), frameByte_set_same (by omega)] at hhi
  exact hhi.symm

/-- Settles O37: the reading is that of its frame, and the frame that of the reading and a marker. -/
theorem validReadingBounds : Obligations.ValidReadingBounds := by
  rintro r ⟨f, hf, hck, hr⟩
  obtain rfl := readingOfFrame_unique hr
  have hsum : (readingGet (unpackFrame f) 14).toNat = byteSum f :=
    (hr 14).trans ((checksumHolds_iff f).1 hck).symm
  obtain ⟨hmin, hmax⟩ := byteSum_bounds_of_head hf.2
  refine ⟨hsum ▸ hmin, hsum ▸ hmax, frameByte f 1, ?_⟩
  rw [hsum, ← byteSum_encodeFrame, encodeFrame_unpackFrame hf]

end Sys2Proof.Machine

/-! Several ticks in a row (41_tick_sync.md R86, 70_reset_and_hazards.md R136, R139): ticks of a scenario that all perform the same
operation. -/

namespace Sys2Proof.Machine

/-- The state with other scenario statements still to come. -/
def State.reschedule (s : State) (later : List Stmt) : State := { s with schedule := later }

@[simp] theorem State.reschedule_S (s : State) (l : List Stmt) : (s.reschedule l).S = s.S := rfl
@[simp] theorem State.reschedule_cur (s : State) (l : List Stmt) : (s.reschedule l).cur = s.cur := rfl
@[simp] theorem State.reschedule_R (s : State) (l : List Stmt) : (s.reschedule l).R = s.R := rfl
@[simp] theorem State.reschedule_published (s : State) (l : List Stmt) :
    (s.reschedule l).published = s.published := rfl
@[simp] theorem State.reschedule_result (s : State) (l : List Stmt) :
    (s.reschedule l).result = s.result := rfl
@[simp] theorem State.reschedule_cause (s : State) (l : List Stmt) :
    (s.reschedule l).cause = s.cause := rfl
@[simp] theorem State.reschedule_phase (s : State) (l : List Stmt) :
    (s.reschedule l).phase = s.phase := rfl

theorem State.effectOf_reschedule (s : State) (l : List Stmt) (c : Cause) :
    (s.reschedule l).effectOf c = (s.effectOf c).reschedule l := by
  cases c <;> rfl

/-- The state after `n` ticks that all perform this operation. -/
def State.afterTicks (s : State) (c : Cause) : Nat → State
  | 0 => s
  | n + 1 => (s.afterTicks c n).effectOf c

@[simp] theorem State.afterTicks_phase (s : State) (c : Cause) (n : Nat) :
    (s.afterTicks c n).phase = s.phase := by
  induction n with
  | zero => rfl
  | succ n ih => rw [State.afterTicks, State.effectOf_phase, ih]

@[simp] theorem State.afterTicks_S (s : State) (c : Cause) (n : Nat) :
    (s.afterTicks c n).S = s.S.drop (c.consumes * n) := by
  induction n with
  | zero => rfl
  | succ n ih => rw [State.afterTicks, State.effectOf_S, ih, List.drop_drop, Nat.mul_succ]

@[simp] theorem State.afterTicks_cur (s : State) (c : Cause) (n : Nat) :
    (s.afterTicks c n).cur = s.cur + c.consumes * n := by
  induction n with
  | zero => rfl
  | succ n ih => rw [State.afterTicks, State.effectOf_cur, ih, Nat.mul_succ, Nat.add_assoc]

theorem State.afterTicks_reading_of_ne {c : Cause} (hc : c ≠ .accept) (s : State) (n : Nat) :
    (s.afterTicks c n).R = s.R ∧ (s.afterTicks c n).published = s.published := by
  induction n with
  | zero => exact ⟨rfl, rfl⟩
  | succ n ih =>
    obtain ⟨hR, hpub⟩ := (s.afterTicks c n).effectOf_reading_of_ne hc
    exact ⟨hR.trans ih.1, hpub.trans ih.2⟩

theorem run_succ {s t : State} (h : step s = .next t) (k : Nat) :
    Host.Core.run core (k + 1) s = Host.Core.run core k t := by
  have hstep : core.step s = .next t := h
  simp only [Host.Core.run, hstep]

/-- A tick that is next in the scenario. -/
theorem run_tick {s : State} {c : Cause} (hp : s.phase = none) (hc : c.Condition s.S)
    (later : List Stmt) (k : Nat) :
    Host.Core.run core (k + 1) (s.reschedule (.tick :: later)) =
      Host.Core.run core k ((s.effectOf c).reschedule later) := by
  refine run_succ ((step_of_schedule rfl).trans ?_) k
  rw [← State.effectOf_reschedule]
  exact exec_tick_of_condition (s := s.reschedule later) hp hc

/-- The first `n` of the ticks in the scenario, where the stream that each of them finds selects the same operation. -/
theorem run_ticks {s : State} {n m : Nat} {later : List Stmt} (c : Cause) (hp : s.phase = none)
    (hs : s.schedule = List.replicate m .tick ++ later) (hn : n ≤ m)
    (hc : ∀ k < n, c.Condition (s.S.drop (c.consumes * k))) (j : Nat) :
    Host.Core.run core (n + j) s =
      Host.Core.run core j
        ((s.afterTicks c n).reschedule (List.replicate (m - n) .tick ++ later)) := by
  induction n generalizing j with
  | zero =>
    rw [Nat.zero_add, Nat.sub_zero, ← hs]
    rfl
  | succ n ih =>
    have hsplit : m - n = m - (n + 1) + 1 := by omega
    rw [Nat.add_assoc, Nat.add_comm 1 j, ih (by omega) (fun k hk => hc k (by omega)), hsplit]
    exact run_tick ((s.afterTicks_phase c n).trans hp)
      (s.afterTicks_S c n ▸ hc n (Nat.lt_succ_self n)) _ j

/-- All the ticks of the scenario but the last perform the operation `c`, and the last one the operation `d`. -/
theorem run_ticks_then {s : State} {n : Nat} {later : List Stmt} (c d : Cause) (hp : s.phase = none)
    (hs : s.schedule = List.replicate (n + 1) .tick ++ later)
    (hc : ∀ k < n, c.Condition (s.S.drop (c.consumes * k)))
    (hd : d.Condition (s.S.drop (c.consumes * n))) :
    Host.Core.run core (n + 1) s = .next (((s.afterTicks c n).effectOf d).reschedule later) := by
  rw [run_ticks c hp hs (Nat.le_succ n) hc 1, Nat.add_sub_cancel_left]
  exact run_tick ((s.afterTicks_phase c n).trans hp) (s.afterTicks_S c n ▸ hd) later 0

/-- Writing the outcome `WAIT` again changes nothing. -/
theorem State.afterTicks_wait (s : State) (n : Nat) :
    s.afterTicks .wait (n + 1) = s.waitEffect := by
  induction n with
  | zero => rfl
  | succ n ih => rw [State.afterTicks, ih]; rfl

/-- Settles O47: `T.WAIT` consumes nothing, so that every tick finds the same stream, and writes the outcome that already stands. -/
theorem waitHasNoTimeout : Obligations.WaitHasNoTimeout := by
  intro s n later hp hs hnz hshort hhead
  have hcond : Cause.wait.Condition s.S := ⟨hnz, Nat.le_of_lt_succ hshort, hhead⟩
  have hrun := run_ticks .wait hp hs le_rfl
    (fun k _ => by rwa [Cause.consumes, Nat.zero_mul, List.drop_zero]) 0
  rw [State.afterTicks_wait, Nat.sub_self] at hrun
  exact hrun

/-- Enough bytes with the sentinel first select one of the two operations that take a block. -/
theorem exists_condition_of_block {tail : List Byte} (hlen : 32 ≤ (0x42#8 :: tail).length) :
    ∃ d : Cause, (d = .accept ∨ d = .reject) ∧ d.Condition (0x42#8 :: tail) := by
  by_cases hck : ChecksumHolds (0x42#8 :: tail)
  · exact ⟨.accept, .inl rfl, hlen, rfl, hck⟩
  · exact ⟨.reject, .inr rfl, hlen, rfl, hck⟩

/-- Settles O45: `T.RESYNC` consumes one byte, so that each of the first ticks finds the next byte of `g` at the head, and the tick
after them the block. -/
theorem huntingThenAccept : Obligations.HuntingThenAccept := by
  intro s g f rest later hp hs hS hg
  have hdrop {k : Nat} (hk : k ≤ g.length) : s.S.drop (1 * k) = g.drop k ++ f ++ rest := by
    rw [Nat.one_mul, hS, List.append_assoc, List.drop_append_of_le_length hk, List.append_assoc]
  have hcond (k : Nat) (hk : k < g.length) : Cause.resync.Condition (s.S.drop (1 * k)) := by
    rw [hdrop hk.le, List.drop_eq_getElem_cons hk]
    exact condition_resync_cons _ (hg _ (List.getElem_mem hk))
  have hblock : s.S.drop (1 * g.length) = f ++ rest := by
    rw [hdrop le_rfl, List.drop_length, List.nil_append]
  refine ⟨fun k hk => ?_, fun hf hck => ?_, fun tail hhead hlen => ?_⟩
  · have hrun := run_ticks .resync hp hs (show k + 1 ≤ g.length + 1 by omega)
      (fun i hi => hcond i (by omega)) 0
    obtain ⟨hR, hpub⟩ := s.afterTicks_reading_of_ne (c := .resync) nofun (k + 1)
    refine ⟨_, hrun, rfl, rfl, ?_, ?_, hR, hpub⟩
    · exact (s.afterTicks_S .resync (k + 1)).trans (hdrop hk)
    · exact (s.afterTicks_cur .resync (k + 1)).trans (by rw [Cause.consumes, Nat.one_mul])
  · have hrun := run_ticks_then .resync .accept hp hs hcond
      (hblock ▸ condition_accept_append hf hck rest)
    have hS' : (s.afterTicks .resync g.length).S = f ++ rest :=
      (s.afterTicks_S .resync g.length).trans hblock
    rw [State.effectOf, State.acceptEffect_of_append hS' hf.1] at hrun
    refine ⟨_, hrun, rfl, rfl, rfl, ?_, rfl, readingOfFrame_unpackFrame f⟩
    simp [Cause.consumes]
  · obtain ⟨d, hd, hcond'⟩ := exists_condition_of_block (hhead ▸ hlen)
    have hrun := run_ticks_then .resync d hp hs hcond (hblock ▸ hhead ▸ hcond')
    refine ⟨_, hrun, ?_⟩
    simp only [State.reschedule_cause, State.reschedule_S, State.effectOf_cause, State.effectOf_S,
      State.afterTicks_S, Option.some.injEq]
    refine ⟨hd, ?_⟩
    rw [show Cause.resync.consumes = 1 from rfl, hblock]
    obtain rfl | rfl := hd <;> rfl

/-- Blocks of one length leave the front of the stream one after the other. -/
theorem drop_flatten_append {frames : List (List Byte)} {n i : Nat}
    (hlen : ∀ f ∈ frames, f.length = n) (hi : i ≤ frames.length) (rest : List Byte) :
    (frames.flatten ++ rest).drop (n * i) = (frames.drop i).flatten ++ rest := by
  induction i generalizing frames with
  | zero => rfl
  | succ i ih =>
    cases frames with
    | nil => cases hi
    | cons f frames =>
      rw [List.forall_mem_cons] at hlen
      rw [Nat.mul_succ, Nat.add_comm, ← List.drop_drop, List.flatten_cons, List.append_assoc,
        List.drop_left' hlen.1, ih hlen.2 (Nat.le_of_succ_le_succ hi), List.drop_succ_cons]

/-- Settles O46: `T.ACCEPT` consumes 32 bytes, so that each tick finds the next frame at the head. -/
theorem oneFramePerTickOldestFirst : Obligations.OneFramePerTickOldestFirst := by
  intro s frames rest later hp hs hS hframes k f hf
  obtain ⟨hk, hfk⟩ := List.getElem?_eq_some_iff.1 hf
  have hdrop {i : Nat} (hi : i ≤ frames.length) :
      s.S.drop (32 * i) = (frames.drop i).flatten ++ rest := by
    rw [hS, drop_flatten_append (fun g hg => (hframes g hg).1.1) hi]
  have hhead {i : Nat} (hi : i < frames.length) :
      s.S.drop (32 * i) = frames[i] ++ ((frames.drop (i + 1)).flatten ++ rest) := by
    rw [hdrop hi.le, List.drop_eq_getElem_cons hi, List.flatten_cons, List.append_assoc]
  have hcond (i : Nat) (hi : i < k + 1) : Cause.accept.Condition (s.S.drop (32 * i)) := by
    have hlt : i < frames.length := by omega
    obtain ⟨hcap, hck⟩ := hframes _ (List.getElem_mem hlt)
    rw [hhead hlt]
    exact condition_accept_append hcap hck _
  have hrun := run_ticks .accept hp hs hk hcond 0
  have htake : (s.afterTicks .accept k).S.take 32 = f := by
    rw [State.afterTicks_S]
    exact (congrArg (List.take 32) (hhead hk)).trans
      (by rw [hfk, List.take_left' (hframes f (List.mem_of_getElem? hf)).1.1])
  have hR : (s.afterTicks .accept (k + 1)).R = unpackFrame f := by
    rw [State.afterTicks, State.effectOf_accept_R, Config.frameLen, htake]
  refine ⟨_, hrun, rfl, rfl, rfl, ?_, (s.afterTicks_S .accept (k + 1)).trans (hdrop hk),
    s.afterTicks_cur .accept (k + 1)⟩
  rw [State.reschedule_R, hR]
  exact readingOfFrame_unpackFrame f

end Sys2Proof.Machine
